-- ==== Sys2Proof/Word.lean ====
section
/-! DEFINITION. Word.lean: the plain word types of the part (spec/00_scope.md sections 4.1 to 4.3). Numbers that the
manual only counts, compares or adds are `Nat`; what it treats as opaque bit strings is a bit vector. -/

namespace Sys2Proof

/-- One byte of a frame, a page, a record or a block. -/
abbrev Byte := BitVec 8

/-- A content name: 16 bytes, opaque to the part (R21). -/
abbrev Name := BitVec 128

/-- A 48-bit Ethernet address. -/
abbrev Mac := BitVec 48

/-- An IPv4 address. -/
abbrev Ip := BitVec 32

/-- One of the four disk bays (R115). -/
abbrev BayNo := Fin 4

/-- One of the eight stream slots (R125). -/
abbrev SlotNo := Fin 8

end Sys2Proof
end

