-- ==== Sys2Proof/Config.lean ====
section
/-! DEFINITION. Config.lean: what the manual fixes for every box (capacities and times that no configuration record
changes), the three straps, the configuration image the Start-up Loader settles (R193 to R196), and the one open choice
the manual leaves between givers of disk commands (R118). -/

namespace Sys2Proof.Config

/-- Frames the receive FIFO holds (R1). -/
def fifoPlaces : Nat := 128
/-- Messages the control queue holds (R16). -/
def controlPlaces : Nat := 64
/-- Peer entries (section 1.5). -/
def peerPlaces : Nat := 24
/-- Pending asks (R12). -/
def askPlaces : Nat := 4
/-- Life of a pending ask, ms (R13). -/
def askLife : Nat := 10000
/-- The announce timer, ms (R18). -/
def announcePeriod : Nat := 30000
/-- Largest refcount of a chunk entry (R29). -/
def maxRefcount : Nat := 65535
/-- Largest chunk, bytes (R68). -/
def maxChunk : Nat := 1048576
/-- Bytes of one page of the staging pool or the read cache (R77). -/
def pageBytes : Nat := 65536
/-- Pages of one parity set (R78). -/
def parityPages : Nat := 16
/-- Most names in one chunk list (R39). -/
def listNames : Nat := 16384
/-- Names in the whole list region (section 3.1). -/
def regionNames : Nat := 4194304
/-- Most entries of one album (section 3.6). -/
def albumEntries : Nat := 2048
/-- Runs in the run table, and the most for one peer (section 4.1). -/
def runPlaces : Nat := 8
/-- Runs one peer may own (R58). -/
def runsPerPeer : Nat := 2
/-- OPEN objects one run lists (R41). -/
def openPerRun : Nat := 16
/-- Idle timeout of an OPEN run, ms (R59). -/
def runIdle : Nat := 300000
/-- Timeout of a RECEIVING arrival, ms (R73). -/
def arrivalIdle : Nat := 10000
/-- Bytes of one CHUNK or SEGMENT payload (R71, R134). -/
def segmentBytes : Nat := 1024
/-- Generations of an arrival record (R70). -/
def generations : Nat := 2048
/-- Items of the check queue (R75). -/
def checkPlaces : Nat := 48
/-- Block places of the journal buffer (R88). -/
def journalPlaces : Nat := 1024
/-- Places in use at which the journal high-water demand is held (R88). -/
def journalHigh : Nat := 768
/-- Bytes of a journal block, of a label and of a checkpoint header. -/
def blockBytes : Nat := 4096
/-- Bytes of records one journal block holds (section 11.7). -/
def blockRecordBytes : Nat := 4078
/-- The open block's timer, ms (R181). -/
def blockTime : Nat := 200
/-- Blocks of the journal ring (R179). -/
def ringBlocks : Nat := 131072
/-- Blocks in use beyond which a checkpoint starts (R184). -/
def ringHigh : Nat := 98304
/-- First byte of the journal ring (R179). -/
def ringBase : Nat := 536870912
/-- First byte of the checkpoint header of area A (R179). -/
def areaA : Nat := 4096
/-- First byte of the checkpoint header of area B (R179). -/
def areaB : Nat := 268435456
/-- First byte of the stripes (R94). -/
def stripeBase : Nat := 1073741824
/-- One MiB: a stripe slot, and a checkpoint piece (R94, R185). -/
def mib : Nat := 1048576
/-- The filling stripe's close timer, ms (R98). -/
def closeTime : Nat := 2000
/-- Reconstruction places (R108). -/
def reconPlaces : Nat := 4
/-- Commands of one bay's queue (R118). -/
def bayPlaces : Nat := 32
/-- Timeout of an issued disk command, ms (R120). -/
def commandTime : Nat := 10000
/-- Timeout of one spin-up attempt, ms (R122). -/
def spinUpTime : Nat := 30000
/-- How long a power cycle keeps a bay off, ms (R122, R186). -/
def powerOffTime : Nat := 1000
/-- Segments of a slot's send queue (R125). -/
def sendPlaces : Nat := 16
/-- Requests of the fill wait list (R84). -/
def fillWaitPlaces : Nat := 16
/-- The credit carried between intervals (R134). -/
def maxCredit : Nat := 4096
/-- One pacing interval, ms (R129). -/
def intervalTime : Nat := 1
/-- A stall's limit, ms (R137). -/
def stallTime : Nat := 20000
/-- Life of a resume record, ms (R140). -/
def resumeLife : Nat := 30000
/-- The PRIMED timer, ms (R158). -/
def primedTime : Nat := 60000
/-- The button debounce, ms (R177). -/
def debounceTime : Nat := 50

/-- How many tasks one command may run before the rest is kept for the next one (assumption log 4). It is far above
what any state of the part can ask for. -/
def taskFuel : Nat := 2 ^ 40

/-- OPEN CHOICE of the manual, a free value (assumption log 7): "Where two givers offer commands for one freed place, the
first offer taken gets it" (R118) and the manual does not say whose offer is first. The n-th such choice among the
waiting givers is this value. -/
opaque offerChoice : Nat → Nat

end Sys2Proof.Config

namespace Sys2Proof

/-- Readings of the three straps (R193). -/
structure Straps where
  /-- DRAM size: set for 1 GiB, clear for 512 MiB. -/
  dramGiB : Bool
  /-- Factory clear strapped. -/
  factoryClear : Bool
  /-- Boot flash present strapped. -/
  flashPresent : Bool
  deriving DecidableEq, Repr

/-- The configuration image (R194, R195, R196). -/
structure ConfigImage where
  mac : Mac
  ip : Ip
  broadcast : Ip
  port : Nat
  boxTag : Nat
  label : List Byte
  stagingPages : Nat
  cachePages : Nat
  indexCapacity : Nat
  objectCapacity : Nat
  /-- Disk idle time in minutes. -/
  diskIdleMin : Nat
  /-- DEEP idle time in minutes, 0 for never. -/
  deepIdleMin : Nat
  /-- Qualifier count N. -/
  qualifierCount : Nat
  /-- Qualifier window in seconds. -/
  qualifierWindow : Nat
  /-- Qualifier spacing in ms. -/
  qualifierSpacing : Nat
  /-- High water in per cent. -/
  highWater : Nat
  kLock : Nat
  kUnlock : Nat
  quotaCap : Nat
  /-- Pairing window in seconds. -/
  pairingWindow : Nat
  autoRebuild : Bool
  /-- The configuration-defaults flag. -/
  defaultsFlag : Bool
  deriving DecidableEq, Repr

/-- Every field at its default (R195), with the configuration-defaults flag set (R194). -/
def ConfigImage.defaults : ConfigImage where
  mac := 0x024842000001#48
  ip := 0xA9FE4842#32
  broadcast := 0xFFFFFFFF#32
  port := 51744
  boxTag := 1
  label := List.replicate 32 0
  stagingPages := 2048
  cachePages := 256
  indexCapacity := 2097152
  objectCapacity := 131072
  diskIdleMin := 10
  deepIdleMin := 60
  qualifierCount := 2
  qualifierWindow := 60
  qualifierSpacing := 2000
  highWater := 75
  kLock := 3
  kUnlock := 2
  quotaCap := 1048576
  pairingWindow := 120
  autoRebuild := true
  defaultsFlag := true

end Sys2Proof
end

