-- ==== Sys2Proof/Syntax.lean ====
section
/-! DEFINITION. Syntax.lean: the commands of the part, one constructor for each row of spec/opcode_table.json. Every
command carries first the time `t`, in ms, at which its event happens (assumption log 1). A message command takes the
frame at the head of the receive FIFO (R1, R6), so the message itself is no operand of it (assumption log 2). -/

namespace Sys2Proof

/-- The two button lines (R177). -/
inductive Button where
  | pairing
  | power
  deriving DecidableEq, Repr

/-- What a disk's report of a command's end or error concerns: the bay, and which of the command's two attempts (R120). -/
structure DiskReport where
  bay : BayNo
  attempt : Nat
  deriving DecidableEq, Repr

/-- The commands: every event of spec/opcode_table.json. -/
inductive Instr where
  /-- COLD_RESET (R186). Operands: the strap readings sampled, and which bays show a disk. -/
  | coldReset (t : Nat) (straps : Straps) (present : Vector Bool 4)
  /-- WARM_RESET (R186). -/
  | warmReset (t : Nat)
  /-- CONFIG_READ_END (R194). Operand: the bytes the flash gave, or none when it did not answer. -/
  | configReadEnd (t : Nat) (answer : Option (List Byte))
  /-- CAPACITY_READ_END (R116). Operands: the bay and the attempt the disk reports (R120), and the capacity in bytes. -/
  | capacityReadEnd (t : Nat) (report : DiskReport) (capacity : Nat)
  /-- LABEL_DONE (R117). Operands: the bay and the attempt the disk reports (R120), and, for a read, the label block it gave. -/
  | labelDone (t : Nat) (report : DiskReport) (data : List Byte)
  /-- FRAME_ARRIVAL (R1). Operand: the frame from its destination address to its check field. -/
  | frameArrival (t : Nat) (frame : List Byte)
  /-- FRAME_DROPPED (R3). -/
  | frameDropped (t : Nat)
  /-- ARP_REQUEST (R2). -/
  | arpRequest (t : Nat)
  /-- HELLO (R19). -/
  | hello (t : Nat)
  /-- PAIR_ASK (R12). -/
  | pairAsk (t : Nat)
  /-- PAIR_CONFIRM (R14). -/
  | pairConfirm (t : Nat)
  /-- UNPAIR (R15). -/
  | unpair (t : Nat)
  /-- QUERY (R20). -/
  | query (t : Nat)
  /-- WAKE (R172). -/
  | wake (t : Nat)
  /-- RUN_OPEN (R58). -/
  | runOpen (t : Nat)
  /-- RUN_CLOSE (R62). -/
  | runClose (t : Nat)
  /-- RUN_ABORT (R61). -/
  | runAbort (t : Nat)
  /-- OFFER (R67). -/
  | offer (t : Nat)
  /-- CHUNK (R71). -/
  | chunk (t : Nat)
  /-- ARRIVAL_TIMEOUT (R73). Operand: the arrival record. -/
  | arrivalTimeout (t : Nat) (record : Fin 32)
  /-- RUN_IDLE_TIMEOUT (R59). Operand: the run id. -/
  | runIdleTimeout (t : Nat) (run : Nat)
  /-- CHECK_LANE_TAKE (R75). Operands: the lane that takes the item, and which wait list the freed place goes to where both hold items ("either may take it", R85). -/
  | checkLaneTake (t : Nat) (lane : Fin 2) (verifyFirst : Bool)
  /-- CHECK_RESULT_INGEST (R76). Operand: the reporting lane. -/
  | checkResultIngest (t : Nat) (lane : Fin 2)
  /-- CHECK_RESULT_VERIFY (R85). Operand: the reporting lane. -/
  | checkResultVerify (t : Nat) (lane : Fin 2)
  /-- OBJECT_BEGIN (R41). -/
  | objectBegin (t : Nat)
  /-- OBJECT_APPEND (R42). -/
  | objectAppend (t : Nat)
  /-- OBJECT_FINISH (R43). -/
  | objectFinish (t : Nat)
  /-- OBJECT_DELETE (R47). -/
  | objectDelete (t : Nat)
  /-- OBJECT_INFO (R46). -/
  | objectInfo (t : Nat)
  /-- ALBUM_CREATE (R50). -/
  | albumCreate (t : Nat)
  /-- ALBUM_ADD (R51). -/
  | albumAdd (t : Nat)
  /-- ALBUM_REMOVE (R52). -/
  | albumRemove (t : Nat)
  /-- ALBUM_DROP (R53). -/
  | albumDrop (t : Nat)
  /-- ALBUM_LIST (R54). -/
  | albumList (t : Nat)
  /-- PLAY (R127). -/
  | play (t : Nat)
  /-- RESUME (R149). -/
  | resume (t : Nat)
  /-- JUMP_FLOOR (R142). -/
  | jumpFloor (t : Nat)
  /-- JUMP_PEAK (R142). -/
  | jumpPeak (t : Nat)
  /-- EASE_FLOOR (R143). -/
  | easeFloor (t : Nat)
  /-- EASE_PEAK (R143). -/
  | easePeak (t : Nat)
  /-- RETUNE (R144). -/
  | retune (t : Nat)
  /-- RETARGET (R145). -/
  | retarget (t : Nat)
  /-- DROP_NEXT (R146). -/
  | dropNext (t : Nat)
  /-- STOP (R147). -/
  | stop (t : Nat)
  /-- TAPER_STOP (R148). -/
  | taperStop (t : Nat)
  /-- ALL_STOP (R163). -/
  | allStop (t : Nat)
  /-- VIEW_REPORT (R152). -/
  | viewReport (t : Nat)
  /-- GROUP_CALL (R160). -/
  | groupCall (t : Nat)
  /-- HALT_CALL (R162). -/
  | haltCall (t : Nat)
  /-- GROUP_GO (R159). -/
  | groupGo (t : Nat)
  /-- GROUP_HALT (R161). -/
  | groupHalt (t : Nat)
  /-- TRANSMIT_ARBITER (R17). -/
  | transmitArbiter (t : Nat)
  /-- ANNOUNCE_TIMER (R18). -/
  | announceTimer (t : Nat)
  /-- PAIRING_WINDOW_EXPIRY (R11). -/
  | pairingWindowExpiry (t : Nat)
  /-- PENDING_ASK_EXPIRY (R13). Operand: the MAC address of the ask that expires. -/
  | pendingAskExpiry (t : Nat) (mac : Mac)
  /-- PACING_INTERVAL (R134). Operand: the stream slot. -/
  | pacingInterval (t : Nat) (slot : SlotNo)
  /-- STALLED_INTERVAL (R136). Operand: the stream slot. -/
  | stalledInterval (t : Nat) (slot : SlotNo)
  /-- STALL_TIMEOUT (R137). Operand: the stream slot. -/
  | stallTimeout (t : Nat) (slot : SlotNo)
  /-- RESUME_RECORD_EXPIRY (R140). Operand: the stream slot. -/
  | resumeRecordExpiry (t : Nat) (slot : SlotNo)
  /-- PRIMED_TIMEOUT (R158). Operand: the stream slot. -/
  | primedTimeout (t : Nat) (slot : SlotNo)
  /-- BLOCK_TIMER (R181). -/
  | blockTimer (t : Nat)
  /-- CLOSE_TIMER (R98). -/
  | closeTimer (t : Nat)
  /-- XOR_JOB_TAKE (R100). -/
  | xorJobTake (t : Nat)
  /-- PARITY_JOB_END (R99). -/
  | parityJobEnd (t : Nat)
  /-- RECONSTRUCTION_JOB_END (R108). -/
  | reconstructionJobEnd (t : Nat)
  /-- DRAM_TURN_END (R90). -/
  | dramTurnEnd (t : Nat)
  /-- READ_SLOT_DONE (R107). Operands: the bay and the attempt the disk reports (R120), and the bytes it gave. -/
  | readSlotDone (t : Nat) (report : DiskReport) (data : List Byte)
  /-- WRITE_SLOT_DONE (R102). Operands: the bay and the attempt the disk reports (R120). -/
  | writeSlotDone (t : Nat) (report : DiskReport)
  /-- READ_JOURNAL_DONE (R189). Operands: the bay and the attempt the disk reports (R120), and the bytes it gave. -/
  | readJournalDone (t : Nat) (report : DiskReport) (data : List Byte)
  /-- WRITE_JOURNAL_DONE (R182). Operands: the bay and the attempt the disk reports (R120). -/
  | writeJournalDone (t : Nat) (report : DiskReport)
  /-- SPIN_DOWN_DONE (R123). Operands: the bay and the attempt the disk reports (R120). -/
  | spinDownDone (t : Nat) (report : DiskReport)
  /-- COMMAND_ATTEMPT_FAILED (R120). Operands: the bay and the attempt the disk reports (R120). -/
  | commandAttemptFailed (t : Nat) (report : DiskReport)
  /-- COMMAND_TIMEOUT (R120). Operand: the bay. -/
  | commandTimeout (t : Nat) (bay : BayNo)
  /-- SPIN_UP_READY (R122). Operand: the bay. -/
  | spinUpReady (t : Nat) (bay : BayNo)
  /-- SPIN_UP_TIMEOUT (R122). Operand: the bay. -/
  | spinUpTimeout (t : Nat) (bay : BayNo)
  /-- POWER_CYCLE_ON (R122). Operand: the bay. -/
  | powerCycleOn (t : Nat) (bay : BayNo)
  /-- DISK_INSERTED (R116). Operands: the bay, and whether the disk is the one last seen in it (R121, in DEEP only). -/
  | diskInserted (t : Nat) (bay : BayNo) (same : Bool)
  /-- DISK_REMOVED (R121). Operand: the bay. -/
  | diskRemoved (t : Nat) (bay : BayNo)
  /-- BUTTON_LINE_CHANGE (R177). Operands: the line, and whether its new level is the pressed one. -/
  | buttonLineChange (t : Nat) (button : Button) (pressed : Bool)
  /-- BUTTON_DEBOUNCE_EXPIRY (R177). Operand: the line. -/
  | buttonDebounceExpiry (t : Nat) (button : Button)
  /-- DISK_IDLE_TIMER (R167). -/
  | diskIdleTimer (t : Nat)
  /-- QUALIFIER_WINDOW_EXPIRY (R171). -/
  | qualifierWindowExpiry (t : Nat)
  /-- DEEP_IDLE_TIMER (R173). -/
  | deepIdleTimer (t : Nat)
  /-- UNKNOWN_KIND_CODE (R4). -/
  | unknownKindCode (t : Nat)
  deriving DecidableEq, Repr

/-- The time at which a command's event happens. -/
def Instr.time : Instr → Nat
  | .coldReset t _ _ => t
  | .warmReset t => t
  | .configReadEnd t _ => t
  | .capacityReadEnd t _ _ => t
  | .labelDone t _ _ => t
  | .frameArrival t _ => t
  | .frameDropped t => t
  | .arpRequest t => t
  | .hello t => t
  | .pairAsk t => t
  | .pairConfirm t => t
  | .unpair t => t
  | .query t => t
  | .wake t => t
  | .runOpen t => t
  | .runClose t => t
  | .runAbort t => t
  | .offer t => t
  | .chunk t => t
  | .arrivalTimeout t _ => t
  | .runIdleTimeout t _ => t
  | .checkLaneTake t _ _ => t
  | .checkResultIngest t _ => t
  | .checkResultVerify t _ => t
  | .objectBegin t => t
  | .objectAppend t => t
  | .objectFinish t => t
  | .objectDelete t => t
  | .objectInfo t => t
  | .albumCreate t => t
  | .albumAdd t => t
  | .albumRemove t => t
  | .albumDrop t => t
  | .albumList t => t
  | .play t => t
  | .resume t => t
  | .jumpFloor t => t
  | .jumpPeak t => t
  | .easeFloor t => t
  | .easePeak t => t
  | .retune t => t
  | .retarget t => t
  | .dropNext t => t
  | .stop t => t
  | .taperStop t => t
  | .allStop t => t
  | .viewReport t => t
  | .groupCall t => t
  | .haltCall t => t
  | .groupGo t => t
  | .groupHalt t => t
  | .transmitArbiter t => t
  | .announceTimer t => t
  | .pairingWindowExpiry t => t
  | .pendingAskExpiry t _ => t
  | .pacingInterval t _ => t
  | .stalledInterval t _ => t
  | .stallTimeout t _ => t
  | .resumeRecordExpiry t _ => t
  | .primedTimeout t _ => t
  | .blockTimer t => t
  | .closeTimer t => t
  | .xorJobTake t => t
  | .parityJobEnd t => t
  | .reconstructionJobEnd t => t
  | .dramTurnEnd t => t
  | .readSlotDone t _ _ => t
  | .writeSlotDone t _ => t
  | .readJournalDone t _ _ => t
  | .writeJournalDone t _ => t
  | .spinDownDone t _ => t
  | .commandAttemptFailed t _ => t
  | .commandTimeout t _ => t
  | .spinUpReady t _ => t
  | .spinUpTimeout t _ => t
  | .powerCycleOn t _ => t
  | .diskInserted t _ _ => t
  | .diskRemoved t _ => t
  | .buttonLineChange t _ _ => t
  | .buttonDebounceExpiry t _ => t
  | .diskIdleTimer t => t
  | .qualifierWindowExpiry t => t
  | .deepIdleTimer t => t
  | .unknownKindCode t => t

end Sys2Proof
end

