-- ==== Sys2Proof/Decode.lean ====
section
/-! DEFINITION. Decode.lean: the command a word spells. No row of spec/opcode_table.json gives bits: a command is an event
at the part's pins, so no word spells one. -/

namespace Sys2Proof

/-- The command that a word of so many bits spells by the table's bits: none, since no row gives any. -/
def decodeTableWord (_nbits _w : Nat) : Option Instr := none

end Sys2Proof
end

