-- ==== Sys2Proof/Machine/State.lean ====
section
/-! DEFINITION. Machine/State.lean: the whole state of the part, block by block (spec/00_scope.md section 2.1), as plain
data; the reasons a step can stop; the tasks a command's work is made of; and the state right after a COLD reset. -/

namespace Sys2Proof.Machine

/-- Reasons a step stops with a fault. The manual gives every event an effect or has it ignored, so there is none: no
constructor, and nothing raises one (assumption log 3). -/
inductive Fault
  deriving DecidableEq, Repr

/-- Reasons a command is refused by the model. -/
inductive Refusal where
  /-- A command that has no meaning yet, by its mnemonic. Raised by an arm of `exec` only; safe. -/
  | notModelled (mnemonic : String)
  deriving DecidableEq, Repr

/-! ## Link Front (Chapter 1) -/

/-- Where a message goes: MAC address, IPv4 address and UDP port. -/
structure Addr where
  mac : Mac
  ip : Ip
  port : Nat
  deriving DecidableEq, Repr

/-- An outgoing message as it was when it was queued (R16). -/
inductive OutMsg where
  /-- An ARP reply to the requester's MAC and IPv4 address (R2). -/
  | arpReply (mac : Mac) (ip : Ip)
  /-- An HBX message: destination, kind code, peer tag field, sequence, status and body (R8, R9). -/
  | hbx (dest : Addr) (kind tag seq status : Nat) (body : List Byte)
  deriving DecidableEq, Repr

/-- An ENROLLED peer entry (section 1.5). -/
structure Peer where
  mac : Mac
  /-- Last IPv4 address and UDP port; absent after a reload (R10). -/
  last : Option (Ip × Nat)
  tag : Nat
  /-- Roles: bit 0 CONTRIBUTOR, bit 1 VIEWER, bit 2 BOX (section 1.8). -/
  roles : Byte
  quota : Nat
  charged : Nat
  /-- Last closed run (R65). -/
  lastRun : Option Nat
  /-- Qualifier last-counted time (R171). -/
  lastCounted : Option Nat
  deriving DecidableEq, Repr

/-- A pending ask (R12). -/
structure Ask where
  mac : Mac
  roles : Byte
  quota : Nat
  label : List Byte
  asked : Nat
  deriving DecidableEq, Repr

/-- The Link Front. -/
structure Link where
  /-- Receive FIFO, oldest first (R1). -/
  fifo : List (List Byte)
  /-- Control queue, head first (R16). -/
  control : List OutMsg
  /-- Peer table, none for FREE (section 1.5). -/
  peers : Vector (Option Peer) 24
  /-- Peer tag counter. -/
  tagCounter : Nat
  asks : List Ask
  /-- Pairing window: its expiry time while open (R11). -/
  window : Option Nat
  /-- Announce timer: its expiry time while running (R18). -/
  announce : Option Nat
  /-- IPv4 identification counter (R9). -/
  ipId : Nat
  /-- Slot last served by the transmit arbiter (R17). -/
  lastSlot : SlotNo
  /-- The frame last handed to the Ethernet transmitter (R17). -/
  tx : Option (List Byte)
  deriving DecidableEq, Repr

/-! ## Content Index (Chapter 2) -/

/-- States of a chunk entry (R21). -/
inductive EntryState where
  | arriving | checking | staged | striping | stored | lost
  deriving DecidableEq, Repr

/-- A stripe location: stripe number and data slot index (R21). -/
abbrev Loc := Nat × Nat

/-- A chunk entry (R21). -/
structure Entry where
  name : Name
  length : Nat
  check : Nat
  state : EntryState
  refcount : Nat
  payer : Option Nat
  origin : Option Nat
  /-- Staging page list, in data order. -/
  pages : List Nat
  loc : Option Loc
  cached : Bool
  /-- Stored-record mark. -/
  mark : Bool
  /-- Prior state LOST, with the location held then (R28). -/
  prior : Option Loc
  deriving DecidableEq, Repr

/-! ## Object Table and Album Table (Chapter 3) -/

/-- States of an object. -/
inductive ObjState where
  | opened | complete | retired
  deriving DecidableEq, Repr

/-- An object record (R39). -/
structure Obj where
  id : Nat
  owner : Nat
  state : ObjState
  run : Option Nat
  caption : List Byte
  names : List Name
  total : Nat
  albumCount : Nat
  playCount : Nat
  /-- Journal-pending flag. -/
  pending : Bool
  /-- Recorded mark. -/
  recorded : Bool
  deriving DecidableEq, Repr

/-- An IN_USE album (section 3.6). -/
structure Album where
  owner : Nat
  label : List Byte
  entries : List Nat
  deriving DecidableEq, Repr

/-- The Object Table and the Album Table. The list region's use is the sum of the lists' lengths (section 3.1). -/
structure Tables where
  objs : List Obj
  /-- Object id counter (R40). -/
  counter : Nat
  /-- Albums 0..63, none for FREE. -/
  albums : Vector (Option Album) 64
  deriving DecidableEq, Repr

/-! ## Journal positions and records (Chapter 11) -/

/-- A journal position: block sequence, and place within the block (R179). -/
abbrev Pos := Nat × Nat

/-- A journal record (section 11.7). -/
inductive Record where
  | peerEnrolled (slot : Nat) (mac : Mac) (tag : Nat) (roles : Byte) (quota : Nat)
  | peerRemoved (slot tag : Nat)
  | chunkStored (name : Name) (length check stripe dataSlot : Nat) (payer : Option Nat)
  | chunkFreed (name : Name)
  | chunkLost (name : Name)
  | objectComplete (id owner : Nat) (caption : List Byte) (total : Nat) (names : List Name)
  | objectMore (id : Nat) (names : List Name)
  | objectRetired (id : Nat)
  | objectRemoved (id : Nat)
  | albumMade (album owner : Nat) (label : List Byte)
  | albumEntryAdded (album obj position : Nat)
  | albumEntryRemoved (album position : Nat)
  | albumDropped (album : Nat)
  | counters (obj tag run : Nat)
  deriving DecidableEq, Repr

/-! ## Ingest Unit and Check Lanes (Chapter 4) -/

/-- The deferred reply of a RUN-CLOSE (R56). -/
structure Deferred where
  seq : Nat
  addr : Addr
  deriving DecidableEq, Repr

/-- A run record (R56). -/
structure Run where
  id : Nat
  owner : Nat
  closing : Bool
  objects : List Nat
  inFlight : Nat
  pendingObjs : Nat
  mark : Option Pos
  heard : Nat
  reply : Option Deferred
  reclaimed : Bool
  deriving DecidableEq, Repr

/-- An arrival record in use (R69, R70). -/
structure Arrival where
  name : Name
  run : Nat
  owner : Nat
  ownerTag : Nat
  length : Nat
  segments : Nat
  /-- Received-segment set, in order of receipt. -/
  got : List Nat
  check : Nat
  last : Nat
  /-- Phase CHECKING; clear in RECEIVING. -/
  checking : Bool
  deriving DecidableEq, Repr

/-- An arrival record: its generation, and its fields while in use (R70). -/
structure ArrivalRec where
  gen : Nat
  use : Option Arrival
  deriving DecidableEq, Repr

/-- Reasons an arrival is abandoned (R74). -/
inductive LostReason where
  | timeout | badBody | runEnded
  deriving DecidableEq, Repr

/-- An item of the check queue (R72, R85). -/
inductive CheckItem where
  | ingest (number : Nat) (name : Name) (length : Nat) (pages : List Nat) (check : Nat)
  | verify (copy : Nat) (name : Name) (length : Nat) (pages : List Nat) (check : Nat)
  deriving DecidableEq, Repr

/-- The Ingest Unit and the check queue with its two lanes. -/
structure Ingest where
  runs : List Run
  /-- Run id counter (R57). -/
  counter : Nat
  arrivals : Vector ArrivalRec 32
  /-- Check wait list (R72). -/
  checkWait : List CheckItem
  /-- Check queue (R75). -/
  queue : List CheckItem
  /-- What each lane computes, none when idle. -/
  lanes : Vector (Option CheckItem) 2
  deriving DecidableEq, Repr

/-! ## Buffer Manager (Chapter 5) -/

/-- Conditions of a staging page other than FREE (R77). -/
inductive PageCond where
  | reserved | staged | parity
  deriving DecidableEq, Repr

/-- DRAM contents as (address, byte) pairs, addresses rising, no byte 0 listed (Machine/Memory.lean). -/
abbrev Memory := List Host.Cell

/-- Stages of a read-cache copy (R82). -/
inductive Stage where
  | filling | checking | repairing | ready
  deriving DecidableEq, Repr

/-- A read-cache copy (R82). -/
structure Copy where
  /-- The model's own number of the copy: two copies of one name may exist for a time (R87). -/
  id : Nat
  name : Name
  length : Nat
  check : Nat
  pages : List Nat
  loc : Loc
  stage : Stage
  pins : Nat
  drop : Bool
  /-- Filled by a reconstruction (R110). -/
  rebuilt : Bool
  /-- A read, check or repair of it is in flight (R87). -/
  work : Bool
  deriving DecidableEq, Repr

/-- A fill request waiting in the fill wait list (R84): whose window position it is, and what it names. -/
structure FillReq where
  slot : SlotNo
  place : Nat
  name : Name
  length : Nat
  loc : Loc
  deriving DecidableEq, Repr

/-- A block place of the journal buffer that is open or closed (R88), with its write set (R182). -/
structure Block where
  seq : Nat
  records : List Record
  /-- Closed; the one clear is the open block. -/
  closed : Bool
  /-- When its first record entered (R181). -/
  opened : Nat
  /-- Members still pending. -/
  pending : List Nat
  /-- Its WRITE-JOURNAL commands have been offered. -/
  offered : Bool
  deriving DecidableEq, Repr

/-- Requesters of the DRAM port (R90). -/
inductive Requester where
  | linkFront | lane0 | lane1 | xor | disk0 | disk1 | disk2 | disk3 | journal | tables
  deriving DecidableEq, Repr

/-- The DRAM port arbiter (R90): transfers waiting with the bytes they still have to move, in order of issue, the
requester whose turn is running, and the one last served. -/
structure Port where
  waiting : List (Requester × Nat)
  turn : Option Requester
  last : Requester
  deriving DecidableEq, Repr

/-! ## Stripe Engine and XOR Engine (Chapter 6) -/

/-- Conditions of a member (R92). -/
inductive MemberCond where
  | ok | failed | rebuilding
  deriving DecidableEq, Repr

/-- A member entry (R92). -/
structure Member where
  bay : Option BayNo
  cond : MemberCond
  deriving DecidableEq, Repr

/-- Store conditions (R93). -/
inductive StoreCond where
  | whole | degraded | broken | absent
  deriving DecidableEq, Repr

/-- States of a stripe record; an unlisted stripe is FREE (R95). -/
inductive StripeState where
  | filling | writing | held | releasing
  deriving DecidableEq, Repr

/-- Filling phases (R95). -/
inductive FillPhase where
  | gathering | parity | queueing
  deriving DecidableEq, Repr

/-- A filled data slot: the chunk drawn into it and the pages that feed it (R97, R99). -/
structure Filled where
  name : Name
  length : Nat
  pages : List Nat
  /-- Its entry was freed while STRIPING, so the stripe frees the pages (R31). -/
  freed : Bool
  deriving DecidableEq, Repr

/-- How a write of the write set stands (R95). -/
inductive WriteMark where
  | pending | done | failed
  deriving DecidableEq, Repr

/-- A stripe record that is not FREE (R95). -/
structure Stripe where
  state : StripeState
  live : Nat
  /-- Void set. -/
  voids : List Nat
  /-- Degraded-at-birth flag: the member whose image was missed. -/
  missed : Option Nat
  phase : FillPhase
  filled : List Filled
  writeSet : List (Nat × WriteMark)
  /-- The write-out has ended and its records are being appended or have been (R102). -/
  ended : Bool
  /-- Position of the last CHUNK-STORED appended so far in R102 step 1. -/
  lastStored : Option Pos
  /-- Stored position. -/
  stored : Option Pos
  hold : Nat
  busy : Nat
  /-- Issued writes of an abandoned write-out still running; each is counted in `busy` too (R105). -/
  stray : Nat
  release : Option Pos
  /-- CHUNK-FREED records of former chunks given to the journal but not yet entered (R89, R106). -/
  releaseDue : Nat
  /-- Its parity set (R78). -/
  parity : Option (List Nat)
  deriving DecidableEq, Repr

/-- What a reconstruction job is for (R108). -/
inductive JobKind where
  | read (copy : Nat)
  | repair (copy : Nat)
  | rebuild
  deriving DecidableEq, Repr

/-- Where a source read stands. -/
inductive SourceMark where
  | queued | issued | landed
  deriving DecidableEq, Repr

/-- Where a reconstruction job stands (R108, R110, R112). -/
inductive JobStage where
  | waitPlace | reading | xorWait | computing | verifying | rewriting
  deriving DecidableEq, Repr

/-- A reconstruction job (R108). -/
structure Job where
  id : Nat
  kind : JobKind
  stripe : Nat
  /-- The member whose slot is reconstructed. -/
  target : Nat
  length : Nat
  place : Option Nat
  /-- Source members in member order and how each read stands. -/
  sources : List (Nat × SourceMark)
  stage : JobStage
  deriving DecidableEq, Repr

/-- A job of the XOR Engine (R100). -/
inductive XorJob where
  | parity (stripe : Nat)
  | recon (job : Nat)
  deriving DecidableEq, Repr

/-- The Stripe Engine with its XOR Engine. -/
structure Store where
  /-- Member table; its length is D, 0 while it is empty (R92). -/
  members : List Member
  /-- Store condition; none until start-up judges it (R93). -/
  cond : Option StoreCond
  /-- S, the number of stripes. -/
  stripeCount : Nat
  /-- Stripe records that are not FREE, stripe numbers rising (R95). -/
  table : List (Nat × Stripe)
  /-- Rebuild pointer while a rebuild runs (R111). -/
  pointer : Option Nat
  /-- Close timer's expiry while running (R97). -/
  closeTimer : Option Nat
  /-- WRITING stripes in the order in which they became WRITING (R105). -/
  writing : List Nat
  /-- Parity list (R100). -/
  parityList : List Nat
  /-- Reconstruction list, of job numbers (R100). -/
  reconList : List Nat
  xorBusy : Option XorJob
  /-- The reconstruction list was served last (R100). -/
  reconLast : Bool
  jobs : List Job
  nextJob : Nat
  /-- Place wait list (R108). -/
  placeWait : List Nat
  deriving DecidableEq, Repr

/-! ## Disk Ports (Chapter 7) -/

/-- Bay states (R115). -/
inductive BayState where
  | empty | blank | foreign | stale | member
  deriving DecidableEq, Repr

/-- Power substates of a MEMBER bay (R115). -/
inductive Substate where
  | standby | spinningUp | active
  deriving DecidableEq, Repr

/-- The fields of a disk label (R117). -/
structure Label where
  boxTag : Nat
  storeId : Nat
  generation : Nat
  members : Nat
  own : Nat
  conds : List Nat
  stripes : Nat
  deriving DecidableEq, Repr

/-- What probing found at byte 0 (R115). -/
inductive LabelRead where
  | blank
  | bad
  | good (label : Label)
  deriving DecidableEq, Repr

/-- Whom a READ-SLOT serves. -/
inductive ReadUse where
  | copy (copy : Nat)
  | source (job member : Nat)
  deriving DecidableEq, Repr

/-- Whom a WRITE-SLOT serves, with the pages it takes its data from. -/
inductive WriteUse where
  | writeOut (member : Nat) (pages : List Nat) (length : Nat)
  | rewrite (job : Nat)
  | rebuild (job : Nat)
  deriving DecidableEq, Repr

/-- What a READ-JOURNAL of start-up reads (R189, R190). -/
inductive LoadUse where
  | headerA | headerB | image | block
  deriving DecidableEq, Repr

/-- What a WRITE-JOURNAL writes (R182, R185, R188). -/
inductive JournalUse where
  | block (seq member : Nat)
  | piece (checkpoint member index : Nat)
  | header (checkpoint member : Nat)
  | zeros
  | formImage
  | formHeader
  deriving DecidableEq, Repr

/-- A disk command (R119); `capacityRead` is the capacity read of a probe (R116). -/
inductive DiskCmd where
  | readSlot (stripe length : Nat) (use : ReadUse)
  | writeSlot (stripe : Nat) (use : WriteUse)
  | readJournal (start length : Nat) (use : LoadUse)
  | writeJournal (start length : Nat) (use : JournalUse)
  | spinDown
  | labelRead
  | labelWrite (label : Label)
  | capacityRead
  deriving DecidableEq, Repr

/-- Givers of commands to a port (R119). -/
inductive Giver where
  | stripe | journal | power | startup
  deriving DecidableEq, Repr

/-- The command in flight (R115). -/
structure InFlight where
  cmd : DiskCmd
  attempt : Nat
  issued : Nat
  deriving DecidableEq, Repr

/-- A spin-up attempt (R115). -/
structure SpinUp where
  attempt : Nat
  start : Nat
  deriving DecidableEq, Repr

/-- Stages of a probe (R116, R187). `power` waits for the bay's power to come on again. -/
inductive Probe where
  | power | spin | capacity | label
  deriving DecidableEq, Repr

/-- Presence changes latched in DEEP (R121): whether a disk was present when the first came, and whether the disk now
present is another one. -/
structure Latch where
  was : Bool
  other : Bool
  deriving DecidableEq, Repr

/-- A bay record (R115). -/
structure Bay where
  present : Bool
  latch : Option Latch
  /-- Power enable. -/
  power : Bool
  /-- When a power cycle switched it off (R122, R186). -/
  offSince : Option Nat
  state : BayState
  substate : Option Substate
  member : Option Nat
  capacity : Option Nat
  label : Option LabelRead
  faulted : Bool
  queue : List DiskCmd
  flight : Option InFlight
  spin : Option SpinUp
  /-- A spin-up ordered while a SPIN-DOWN is in flight (R123). -/
  spinAgain : Bool
  probe : Option Probe
  /-- Commands refused by a full queue, kept by their givers in order of offering (R118). -/
  kept : List (Giver × DiskCmd)
  deriving DecidableEq, Repr

/-! ## Stream Engine (Chapters 8 and 9) -/

/-- Profiles (R126). -/
inductive Profile where
  | steadyFloor | steadyPeak | shaped
  deriving DecidableEq, Repr

/-- Taper modes (R126). -/
inductive Taper where
  | none
  | auto (offset : Int)
  | manual (distance : Nat)
  deriving DecidableEq, Repr

/-- A transfer record (R126). -/
structure Transfer where
  obj : Nat
  start : Nat
  length : Nat
  profile : Profile
  floor : Nat
  peak : Nat
  rise : Nat
  fall : Nat
  taper : Taper
  mark1 : Nat
  mark2 : Nat
  group : Nat
  haltWithGroup : Bool
  lagBand : Nat
  deriving DecidableEq, Repr

/-- A current record, with its transfer tag and next-dropped mark (R125). -/
structure Current where
  xfer : Transfer
  tag : Nat
  nextDropped : Bool
  deriving DecidableEq, Repr

/-- A resume record (R140). -/
structure Resume where
  xfer : Transfer
  sent : Nat
  made : Nat
  deriving DecidableEq, Repr

/-- Phases of a pacer (R133). -/
inductive Phase where
  | rising | peak | falling | floor
  deriving DecidableEq, Repr

/-- What a FALLING phase falls toward (R133, R143, R144, R154). -/
inductive FallTarget where
  | floor | pendingPeak | cap
  deriving DecidableEq, Repr

/-- A pacer (R125). P in force is the current record's peak. -/
structure Pacer where
  rate : Nat
  phase : Phase
  target : FallTarget
  pendingPeak : Option Nat
  credit : Nat
  sent : Nat
  taperStop : Bool
  deriving DecidableEq, Repr

/-- States of a report tracker (section 9.1). -/
inductive TrackState where
  | opened | steady | strained
  deriving DecidableEq, Repr

/-- A report tracker (section 9.1). -/
structure Tracker where
  state : TrackState
  inBand : Nat
  outBand : Nat
  deriving DecidableEq, Repr

/-- How a window position stands (R130). -/
inductive PosState where
  /-- Ready: read from these staging pages, under a read hold. -/
  | staging (pages : List Nat)
  /-- Ready: read from this READY copy, pinned. -/
  | cached (copy : Nat)
  /-- Waiting for a pinned copy to become READY. -/
  | copyWait (copy : Nat)
  /-- Waiting in the fill wait list. -/
  | fillWait
  /-- Waiting for the entry to change state (R36). -/
  | entryWait
  /-- Lost, with the pin it still holds, if any (R85). -/
  | lost (pin : Option Nat)
  deriving DecidableEq, Repr

/-- A window position: the chunk list place, the object offset of its first byte, and its chunk (R130). -/
structure WinPos where
  place : Nat
  offset : Nat
  name : Name
  length : Nat
  state : PosState
  deriving DecidableEq, Repr

/-- States of a slot (R125). -/
inductive SlotState where
  | idle | primed | running | stalled
  deriving DecidableEq, Repr

/-- A stream slot (R125). -/
structure Slot where
  state : SlotState
  owner : Option Nat
  ret : Option Addr
  tagCounter : Nat
  cur : Option Current
  next : Option Transfer
  resume : Option Resume
  pacer : Option Pacer
  tracker : Option Tracker
  window : List WinPos
  sendQueue : List OutMsg
  stallStart : Option Nat
  /-- Interval timer's expiry (R129). -/
  interval : Option Nat
  /-- When the record became PRIMED (R158). -/
  primedAt : Option Nat
  deriving DecidableEq, Repr

/-- Reasons a transfer ends (R138). -/
inductive EndReason where
  | done | stopped | tapered | retarget | stall | asleep | lost | halted | unstarted
  deriving DecidableEq, Repr

/-! ## Power Unit (Chapter 10) -/

/-- Box power states (R165). -/
inductive PowerState where
  | starting | awake | quiet | waking | deep
  deriving DecidableEq, Repr

/-- Held internal demands (R168). -/
inductive Demand where
  | stagingHigh
  | journalHigh
  | durable (run : Nat)
  | rebuild
  | repair
  deriving DecidableEq, Repr

/-- A button line: its level, its reading, and the debounce's expiry while one runs (R177). -/
structure Line where
  level : Bool
  reading : Bool
  due : Option Nat
  deriving DecidableEq, Repr

/-- What took the box out of DEEP (R176). -/
inductive Cause where
  | message | wake | press
  deriving DecidableEq, Repr

/-- The Power Unit. -/
structure Power where
  state : PowerState
  /-- Disk idle timer's expiry while running (R167). -/
  diskIdle : Option Nat
  /-- DEEP idle timer's expiry while running (R173). -/
  deepIdle : Option Nat
  deepDue : Bool
  demands : List Demand
  count : Nat
  /-- Qualifier window's expiry while open (R171). -/
  window : Option Nat
  pairing : Line
  power : Line
  /-- When the box entered DEEP, for the frozen timers (R175). -/
  deepSince : Option Nat
  deriving DecidableEq, Repr

/-! ## Journal Unit and Start-up Loader (Chapters 11 and 12) -/

/-- A chunk entry as the journal gives it (R37). -/
structure LoadedChunk where
  name : Name
  length : Nat
  check : Nat
  loc : Loc
  payer : Option Nat
  lost : Bool
  deriving DecidableEq, Repr

/-- An object as the journal gives it (R55): `total` names are due, those met so far stand in `names`. -/
structure LoadedObj where
  id : Nat
  owner : Nat
  caption : List Byte
  total : Nat
  names : List Name
  retired : Bool
  deriving DecidableEq, Repr

/-- An enrolled peer as the journal gives it (R10). -/
structure LoadedPeer where
  slot : Nat
  mac : Mac
  tag : Nat
  roles : Byte
  quota : Nat
  deriving DecidableEq, Repr

/-- The tables as replay of a run of records builds them (section 11.2). -/
structure Loaded where
  peers : List LoadedPeer
  chunks : List LoadedChunk
  objs : List LoadedObj
  albums : List (Nat × Album)
  objCounter : Nat
  tagCounter : Nat
  runCounter : Nat
  deriving DecidableEq, Repr

/-- A member's part in a checkpoint: pieces still to issue or end, and its header write (R185). -/
inductive PieceMark where
  /-- This piece is queued or in flight. -/
  | piece (index : Nat)
  | piecesDone
  | headerPending
  | headerDone
  deriving DecidableEq, Repr

/-- A checkpoint in progress (R184, R185). -/
structure Checkpoint where
  number : Nat
  start : Nat
  image : List Byte
  /-- Image pieces are being written; clear while earlier blocks are still unwritten. -/
  writing : Bool
  members : List (Nat × PieceMark)
  deriving DecidableEq, Repr

/-- A checkpoint header (section 11.7). -/
structure Header where
  storeId : Nat
  number : Nat
  start : Nat
  length : Nat
  check : Nat
  deriving DecidableEq, Repr

/-- The Journal Unit (R179). While `set` is clear its other fields but the torn-tail flag are absent and hold 0. -/
structure Journal where
  set : Bool
  storeId : Nat
  nextSeq : Nat
  ringStart : Nat
  written : Nat
  lastCheckpoint : Nat
  checkpoint : Option Checkpoint
  /-- A checkpoint asked by a rebuild's end and kept (R184). -/
  wanted : Bool
  torn : Bool
  /-- The tables as replay of every record that has entered the journal would build them: what a checkpoint image
  holds (R184). -/
  tables : Loaded
  /-- Position of the record that entered last. -/
  lastPos : Pos
  deriving DecidableEq, Repr

/-- Phases of start-up (section 11.6). -/
inductive Phase11 where
  | config
  | probing
  | forming
  /-- Checkpoint load from this member: the valid headers whose image may still be tried, each with its area's first byte. -/
  | loading (member : Nat) (headers : List (Nat × Header))
  /-- Replay of the ring of this member at the expected sequence. -/
  | replay (member expected : Nat)
  | reconciling
  | ended
  deriving DecidableEq, Repr

/-- The Start-up Loader. -/
structure Loader where
  straps : Straps
  image : ConfigImage
  /-- The configuration is settled (R194). -/
  settled : Bool
  phase : Phase11
  /-- The running start-up followed a COLD reset (R193). -/
  cold : Bool
  deriving DecidableEq, Repr

/-! ## Tasks -/

/-- What one block asks of another, or of itself, inside a command: a command's work is a list of these, carried out in
order (Machine/Engine.lean). A record that meets a full journal buffer pauses the tasks behind it (R89). -/
inductive Task where
  | endWork
  | send (msg : OutMsg)
  | append (r : Record)
  | resume
  | endResume
  | closeBlock
  | startCheckpoint
  | offerBlocks
  | judgeBlocks
  | journalDemand
  | reported
  | journalEnded (use : JournalUse) (done : Bool)
  | loadEnded (use : LoadUse) (data : Option (List Byte))
  | stopJournal
  | advanceCheckpoint
  | offerPiece (member index : Nat)
  | free (name : Name)
  | released (stripes : List Nat)
  | decrement (name : Name)
  | abandonEntry (name : Name)
  | checked (name : Name)
  | markLost (name : Name) (loc : Loc)
  | entryChanged (name : Name)
  | toldLost (name : Name)
  | pagesDue (pages : List Nat)
  | unhold (pages : List Nat)
  | pagesFreed
  | stagingDemand
  | askParity (stripe : Nat)
  | releaseParity (pages : List Nat)
  | requestFill (request : FillReq)
  | retryFills
  | unpin (copy : Nat)
  | dropCopy (copy : Nat)
  | reapCopy (copy : Nat)
  | landed (copy : Nat)
  | readFailed (copy : Nat)
  | verified (copy : Nat)
  | walk
  | closeStripe
  | judgeQueueing
  | writeEnded (stripe member : Nat) (done : Bool)
  | judgeWriteOut (stripe : Nat)
  | appendStored (stripe slot : Nat)
  | markStored (stripe : Nat) (name : Name)
  | writeOutTail (stripe : Nat)
  | judgeStored (stripe : Nat)
  | slotStored (stripe slot : Nat)
  | stripeHeld (stripe : Nat)
  | judgeStripe (stripe : Nat)
  | abandonTail (stripe : Nat)
  | routeRead (copy : Nat)
  | busyDown (stripe : Nat)
  | newJob (kind : JobKind) (stripe target length : Nat)
  | startJob (job : Nat)
  | freePlace
  | sourceEnded (job member stripe : Nat) (landed : Bool)
  | withdrawRead (copy : Nat)
  | repair (copy : Nat)
  | repaired (copy : Nat)
  | repairFailed (copy : Nat)
  | repairEnded (job : Nat)
  | repairDemand
  | judgeRebuild
  | rebuildStep
  | rebuildEnd
  | haltRebuild
  | memberFailed (member : Nat)
  | memberLeft (member : Nat)
  | judgeCond
  | storeBroken
  | labelRound
  | offer (bay : BayNo) (giver : Giver) (cmd : DiskCmd)
  | pump (bay : BayNo)
  | placeFreed (bay : BayNo)
  | cmdFailed (bay : BayNo) (cmd : DiskCmd)
  | declareFailed (bay : BayNo) (removed : Bool)
  | endPort (bay : BayNo)
  | leaveMember (bay : BayNo) (removed : Bool)
  | spinUp (bay : BayNo)
  | substateReport
  | startProbe (bay : BayNo)
  | classify (bay : BayNo)
  | probeFailed (bay : BayNo)
  | takeLatch (bay : BayNo)
  | reinsert (bay : BayNo)
  | rebuildWritten (job : Nat)
  | commandEnded (done : Bool)
  | removeObject (id : Nat)
  | dropObject (id : Nat)
  | releasePlay (id : Nat)
  | albumFall (id : Nat)
  | takeEntry (album : Nat)
  | freeAlbum (album : Nat)
  | objectRecords (id : Nat) (run : Option Nat)
  | objectRecorded (id : Nat) (run : Option Nat)
  | discardObject (id : Nat)
  | endRun (run : Nat)
  | closeAfterReclaim (run : Nat)
  | abandonArrival (index : Fin 32) (reason : LostReason)
  | freeArrival (index : Fin 32)
  | reclaim (run : Nat)
  | closeZero (run : Nat)
  | judgeClose (run : Nat)
  | completeRun (run : Nat) (ok : Bool)
  | fill (slot : SlotNo)
  | lookup (slot : SlotNo) (place : Nat)
  | endTransfer (slot : SlotNo) (reason : EndReason)
  | endTail (slot : SlotNo) (reason : EndReason)
  | emit (slot : SlotNo)
  | peerDemand (peer : Nat)
  | raise (d : Demand)
  | lower (d : Demand)
  | momentary
  | flush
  | orderSpinUp
  | enterWaking
  | judgeAwake
  | enterAwake
  | deepCheck
  | answerWake (dest : Addr) (seq : Nat)
  | enterDeep
  | exitDeep (cause : Cause)
  | resumeTimers
  | takeReserve
  | settle
  | startProbes
  | judgeProbes
  | assignMembers
  | formStore
  | judgeFormation
  | loadMember (member : Nat)
  | tryImage
  | readBlock
  | endReplay
  | reconcileObjects
  | reconcileChunks
  | reconcileStripes
  | endStartup
  | enterAwakeFirst
  | storeAbsent
  deriving DecidableEq, Repr

/-- A work paused behind a full journal buffer: the record that waits, and the tasks behind it (R89). -/
structure Paused where
  record : Record
  rest : List Task
  deriving DecidableEq, Repr

/-- The Buffer Manager. -/
structure Buffers where
  /-- Staging pages that are not FREE, page numbers rising (R77). -/
  pool : List (Nat × PageCond)
  /-- The parity reserve's pages while present (R78). -/
  reserve : Option (List Nat)
  /-- Parity wait list, of stripe numbers (R78). -/
  parityWait : List Nat
  /-- Read holds: a page list and its holds (R79). -/
  holds : List (List Nat × Nat)
  /-- Page lists due to become FREE when their last hold goes (R79). -/
  detached : List (List Nat)
  /-- Staged list (R80). -/
  staged : List Name
  /-- Read-cache copies, least recently used first (R82). -/
  copies : List Copy
  nextCopy : Nat
  fillWait : List FillReq
  verifyWait : List CheckItem
  /-- Contents of the staging pages: page p at address p × 65,536. -/
  stagingMem : Memory
  /-- Contents of the read-cache pages: page p at address p × 65,536. -/
  cacheMem : Memory
  /-- Contents of the reconstruction places: source space m of place p at (4p + m) × 1 MiB for the member m of the
  source, the target member's space being the result space (R108). -/
  placeMem : Memory
  /-- Journal buffer: open and closed block places, oldest first (R88). -/
  blocks : List Block
  /-- Append wait list (R89). -/
  appendWait : List Paused
  /-- Paused work is being resumed (R89). -/
  resuming : Bool
  port : Port
  deriving DecidableEq, Repr

/-- The whole part. -/
structure State where
  /-- Commands waiting, first in first out. -/
  pending : List Instr
  /-- The time, ms. -/
  now : Nat
  /-- Tasks of earlier commands still to be carried out (assumption log 4). -/
  unfinished : List Task
  /-- Open choices taken so far (assumption log 7). -/
  choices : Nat
  link : Link
  /-- Content Index: chunk entries in order of creation (R21). -/
  index : List Entry
  tables : Tables
  ingest : Ingest
  buf : Buffers
  store : Store
  bays : Vector Bay 4
  /-- Label generation; absent until start-up (R117). -/
  labelGen : Option Nat
  slots : Vector Slot 8
  power : Power
  journal : Journal
  loader : Loader
  deriving DecidableEq, Repr

/-! ## Reset -/

/-- The Link Front after a reset (R1, R9, R10, R11, R16, R17, R18). -/
def Link.reset : Link where
  fifo := []
  control := []
  peers := Vector.replicate 24 none
  tagCounter := 1
  asks := []
  window := none
  announce := none
  ipId := 0
  lastSlot := 7
  tx := none

/-- The Object and Album Tables after a reset (R55). -/
def Tables.reset : Tables := { objs := [], counter := 1, albums := Vector.replicate 64 none }

/-- The Ingest Unit and the Check Lanes after a reset (R56, R70, R75). -/
def Ingest.reset : Ingest where
  runs := []
  counter := 1
  arrivals := Vector.replicate 32 { gen := 0, use := none }
  checkWait := []
  queue := []
  lanes := Vector.replicate 2 none

/-- The Buffer Manager after a reset (R77, R80, R82, R88, R90, R91). -/
def Buffers.reset : Buffers where
  pool := []
  reserve := none
  parityWait := []
  holds := []
  detached := []
  staged := []
  copies := []
  nextCopy := 0
  fillWait := []
  verifyWait := []
  stagingMem := []
  cacheMem := []
  placeMem := []
  blocks := []
  appendWait := []
  resuming := false
  port := { waiting := [], turn := none, last := .tables }

/-- The Stripe Engine after a reset (R92, R95, R100, R108, R114). -/
def Store.reset : Store where
  members := []
  cond := none
  stripeCount := 0
  table := []
  pointer := none
  closeTimer := none
  writing := []
  parityList := []
  reconList := []
  xorBusy := none
  reconLast := false
  jobs := []
  nextJob := 0
  placeWait := []

/-- A bay with its power off and nothing known of its disk (R124). -/
def Bay.reset (present : Bool) : Bay where
  present := present
  latch := none
  power := false
  offSince := none
  state := .empty
  substate := none
  member := none
  capacity := none
  label := none
  faulted := false
  queue := []
  flight := none
  spin := none
  spinAgain := false
  probe := none
  kept := []

/-- A stream slot after a reset (R125). -/
def Slot.reset : Slot where
  state := .idle
  owner := none
  ret := none
  tagCounter := 0
  cur := none
  next := none
  resume := none
  pacer := none
  tracker := none
  window := []
  sendQueue := []
  stallStart := none
  interval := none
  primedAt := none

/-- The Power Unit after a reset (R165), the button lines at the given levels at the given time: each reading starts as
pressed, and a line at the released level begins its debounce (R177). -/
def Power.reset (pairing power : Bool) (now : Nat) : Power where
  state := .starting
  diskIdle := none
  deepIdle := none
  deepDue := false
  demands := []
  count := 0
  window := none
  pairing := { level := pairing, reading := true, due := if pairing then none else some (now + Config.debounceTime) }
  power := { level := power, reading := true, due := if power then none else some (now + Config.debounceTime) }
  deepSince := none

/-- Tables that hold nothing, every counter at 1 (R188). -/
def Loaded.empty : Loaded where
  peers := []
  chunks := []
  objs := []
  albums := []
  objCounter := 1
  tagCounter := 1
  runCounter := 1

/-- The Journal Unit after a reset (R179). -/
def Journal.reset : Journal where
  set := false
  storeId := 0
  nextSeq := 0
  ringStart := 0
  written := 0
  lastCheckpoint := 0
  checkpoint := none
  wanted := false
  torn := false
  tables := Loaded.empty
  lastPos := (0, 0)

/-- Everything but the loader, the bays, the buttons, the clock and the command queue as both resets leave it (R186). -/
def State.cleared (s : State) (bays : Vector Bay 4) (loader : Loader) : State where
  pending := s.pending
  now := s.now
  unfinished := []
  choices := s.choices
  link := Link.reset
  index := []
  tables := Tables.reset
  ingest := Ingest.reset
  buf := Buffers.reset
  store := Store.reset
  bays := bays
  labelGen := none
  slots := Vector.replicate 8 Slot.reset
  power := Power.reset s.power.pairing.level s.power.power.level s.now
  journal := Journal.reset
  loader := loader

/-- The straps the model names for the state after reset: 512 MiB, factory clear open, boot flash present (DESIGN CHOICE,
assumption log 5). -/
def Straps.atReset : Straps := { dramGiB := false, factoryClear := false, flashPresent := true }

/-- The part right after a COLD reset (R186): STARTING, straps sampled, the configuration record being read, no disk
seen yet, both buttons at the released level (assumption log 5). -/
def State.reset : State where
  pending := []
  now := 0
  unfinished := []
  choices := 0
  link := Link.reset
  index := []
  tables := Tables.reset
  ingest := Ingest.reset
  buf := Buffers.reset
  store := Store.reset
  bays := Vector.replicate 4 (Bay.reset false)
  labelGen := none
  slots := Vector.replicate 8 Slot.reset
  power := Power.reset false false 0
  journal := Journal.reset
  loader := { straps := Straps.atReset, image := ConfigImage.defaults, settled := false, phase := .config, cold := true }

end Sys2Proof.Machine
end

