-- ==== Sys2Proof/Machine/Memory.lean ====
section
/-! DEFINITION. Machine/Memory.lean: DRAM contents (R77, R82, R108) as (address, byte) pairs in one canonical form:
addresses strictly rising and no byte equal to what an unlisted address reads as, which is 0 (DESIGN CHOICE, assumption
log 6). Page p of a pool begins at p × 65,536. -/

namespace Sys2Proof.Machine

/-- What an unlisted address reads as (assumption log 6). -/
def Memory.unlisted : Byte := 0

/-- The byte at an address. -/
def Memory.read (m : Memory) (a : Nat) : Byte :=
  match m with
  | [] => Memory.unlisted
  | (k, v) :: rest => if k = a then v else Memory.read rest a

/-- Write one byte; writing what an unlisted address reads as removes the entry. -/
def Memory.write (m : Memory) (a : Nat) (b : Byte) : Memory :=
  match m with
  | [] => if b = Memory.unlisted then [] else [(a, b)]
  | (k, v) :: rest =>
    if a < k then (if b = Memory.unlisted then (k, v) :: rest else (a, b) :: (k, v) :: rest)
    else if a = k then (if b = Memory.unlisted then rest else (a, b) :: rest)
    else (k, v) :: Memory.write rest a b

/-- The canonical form. -/
abbrev Memory.wf (m : Memory) : Prop :=
  m.Pairwise (fun x y => x.1 < y.1) ∧ ∀ c ∈ m, c.2 ≠ Memory.unlisted

/-- Write bytes at rising addresses. -/
def Memory.writeBytes (m : Memory) (a : Nat) : List Byte → Memory
  | [] => m
  | b :: bs => Memory.writeBytes (m.write a b) (a + 1) bs

/-- Every byte of a range becomes 0. -/
def Memory.clear (m : Memory) (a n : Nat) : Memory := m.filter fun c => !(a ≤ c.1 && c.1 < a + n)

/-- The nonzero bytes of a range, with their offsets in it. -/
def Memory.slice (m : Memory) (a n : Nat) : List Host.Cell :=
  (m.filter fun c => a ≤ c.1 && c.1 < a + n).map fun c => (c.1 - a, c.2)

/-- XOR bytes at offsets into the range that begins at an address. -/
def Memory.xorInto (m : Memory) (a : Nat) (cells : List Host.Cell) : Memory :=
  cells.foldl (fun acc c => acc.write (a + c.1) (acc.read (a + c.1) ^^^ c.2)) m

/-- The address of byte `off` of a chunk held in a page list (R21): page `off / 65,536`, offset `off mod 65,536`. -/
def pageAddr (pages : List Nat) (off : Nat) : Nat :=
  pages.getD (off / Config.pageBytes) 0 * Config.pageBytes + off % Config.pageBytes

/-- `n` bytes of a chunk from byte `off` on. -/
def Memory.chunkBytes (m : Memory) (pages : List Nat) (off n : Nat) : List Byte :=
  (List.range n).map fun i => m.read (pageAddr pages (off + i))

/-- Write bytes of a chunk from byte `off` on, within its page list. -/
def Memory.putChunk (m : Memory) (pages : List Nat) (off : Nat) : List Byte → Memory
  | [] => m
  | b :: bs => Memory.putChunk (m.write (pageAddr pages off) b) pages (off + 1) bs

/-- Every byte of a page list becomes 0. -/
def Memory.clearPages (m : Memory) (pages : List Nat) : Memory :=
  pages.foldl (fun acc p => acc.clear (p * Config.pageBytes) Config.pageBytes) m

/-- The nonzero bytes of a chunk's first `len` bytes, with their offsets in the chunk (a data slot image, R94). -/
def Memory.chunkImage (m : Memory) (pages : List Nat) (len : Nat) : List Host.Cell :=
  (pages.zipIdx).flatMap fun p =>
    (m.slice (p.1 * Config.pageBytes) (min Config.pageBytes (len - p.2 * Config.pageBytes))).map fun c =>
      (p.2 * Config.pageBytes + c.1, c.2)

/-- XOR an image into a page list. -/
def Memory.xorPages (m : Memory) (pages : List Nat) (cells : List Host.Cell) : Memory :=
  cells.foldl (fun acc c => acc.write (pageAddr pages c.1) (acc.read (pageAddr pages c.1) ^^^ c.2)) m

/-- First byte of a reconstruction place's space for a member index (R108). -/
def spaceBase (place member : Nat) : Nat := (place * 4 + member) * Config.mib

end Sys2Proof.Machine
end

