-- ==== Sys2Proof/Machine/Bytes.lean ====
section
/-! DEFINITION. Machine/Bytes.lean: byte order and check sums (section 4.3, R1, R3, R38). -/

namespace Sys2Proof.Machine

/-- The byte holding a number's low eight bits. -/
def byteOf (n : Nat) : Byte := BitVec.ofNat 8 n

/-- `k` bytes, most significant first (section 4.3). -/
def be : Nat → Nat → List Byte
  | 0, _ => []
  | k + 1, n => byteOf (n / 256 ^ k) :: be k n

/-- The number whose bytes, most significant first, are these. -/
def beNat (bs : List Byte) : Nat := bs.foldl (fun a b => a * 256 + b.toNat) 0

/-- The field of `k` bytes at offset `o` of a byte string. -/
def field (bs : List Byte) (o k : Nat) : Nat := beNat ((bs.drop o).take k)

/-- The byte at offset `o`, 0 past the end. -/
def byteAt (bs : List Byte) (o : Nat) : Nat := (bs.getD o 0).toNat

/-- One bit of the cyclic check, least significant first, generator 0x04C11DB7 reflected (R1). -/
def crcBit (c : BitVec 32) : BitVec 32 :=
  if c.getLsbD 0 then (c >>> 1) ^^^ 0xEDB88320#32 else c >>> 1

/-- One byte of the cyclic check. -/
def crcByte (c : BitVec 32) (b : Byte) : BitVec 32 :=
  crcBit <| crcBit <| crcBit <| crcBit <| crcBit <| crcBit <| crcBit <| crcBit (c ^^^ b.setWidth 32)

/-- The 32-bit cyclic check of a byte string: starting value all ones, result inverted (R1). -/
def crc32 (bs : List Byte) : BitVec 32 := ~~~ (bs.foldl crcByte 0xFFFFFFFF#32)

/-- The check field of a frame: the cyclic check, least significant byte first (PRESUMED of Ethernet, assumption
log 9). -/
def frameCheck (bs : List Byte) : List Byte := (be 4 (crc32 bs).toNat).reverse

/-- The 16-bit words of a byte string, padded with one zero byte to an even length (R3). -/
def words16 : List Byte → List Nat
  | [] => []
  | [a] => [a.toNat * 256]
  | a :: b :: rest => (a.toNat * 256 + b.toNat) :: words16 rest

/-- The ones'-complement sum of 16-bit words (R3). -/
def onesSum (ws : List Nat) : Nat :=
  if ws.sum = 0 then 0 else (ws.sum - 1) % 65535 + 1

/-- One byte of the body check: sum1, then sum2 (R38 step 2). -/
def checkByte (s : Nat × Nat) (b : Byte) : Nat × Nat :=
  ((s.1 + b.toNat) % 65535, (s.2 + (s.1 + b.toNat) % 65535) % 65535)

/-- The body check of a byte string (R38). -/
def bodyCheck (bs : List Byte) : Nat :=
  (bs.foldl checkByte (bs.length % 65535, 0)).2 * 65536 + (bs.foldl checkByte (bs.length % 65535, 0)).1

/-- A byte string of exactly `n` bytes: cut, or followed by zeros. -/
def padTo (n : Nat) (bs : List Byte) : List Byte := bs.take n ++ List.replicate (n - bs.length) 0

end Sys2Proof.Machine
end

