-- ==== Sys2Proof/Machine/Flags.lean ====
section
/-! DEFINITION. Machine/Flags.lean: the codes of sections 1.4, 1.8, 3.10, 4.8, 8.10 and 10.9, the box condition flags, and
the lamps. -/

namespace Sys2Proof.Machine

/-! Status codes (section 1.4). -/

def stOk : Nat := 0
def stHave : Nat := 1
def stSend : Nat := 2
def stInflight : Nat := 3
def stWait : Nat := 4
def stQuota : Nat := 5
def stFull : Nat := 6
def stMissing : Nat := 7
def stNotPaired : Nat := 8
def stNotAllowed : Nat := 9
def stBadForm : Nat := 10
def stBadRange : Nat := 11
def stNoSuch : Nat := 12
def stBusy : Nat := 13
def stNextFull : Nat := 14
def stNotRunning : Nat := 15
def stNotComplete : Nat := 16
def stRetired : Nat := 17
def stDuplicate : Nat := 18
def stRefLimit : Nat := 19
def stClosing : Nat := 20
def stDiskFault : Nat := 21
def stStarting : Nat := 22
def stWindowClosed : Nat := 23

/-! Kind codes of the messages the box sends (section 1.8). -/

def kindReply : Nat := 0x80
def kindAnnounce : Nat := 0x81
def kindSegment : Nat := 0x82
def kindMark : Nat := 0x83
def kindEnded : Nat := 0x84
def kindArrivalLost : Nat := 0x85

/-- Role bits (section 1.8). -/
def roleContributor : Byte := 1
def roleViewer : Byte := 2
def roleBox : Byte := 4

/-- A role set holds a role. -/
def hasRole (roles role : Byte) : Bool := roles &&& role ≠ 0

/-- Power state codes (section 1.8). -/
def PowerState.code : PowerState → Nat
  | .starting => 0 | .awake => 1 | .quiet => 2 | .waking => 3 | .deep => 4

/-- Store condition codes (section 1.8). -/
def StoreCond.code : StoreCond → Nat
  | .whole => 0 | .degraded => 1 | .broken => 2 | .absent => 3

/-- Member condition codes (section 1.8). -/
def MemberCond.code : MemberCond → Nat
  | .ok => 0 | .failed => 1 | .rebuilding => 2

/-- The member condition of a label's code (R117); any code but OK and REBUILDING reads as FAILED. -/
def MemberCond.ofCode (n : Nat) : MemberCond :=
  if n = 0 then .ok else if n = 2 then .rebuilding else .failed

/-- Object state codes (section 3.10). -/
def ObjState.code : ObjState → Nat
  | .opened => 0 | .complete => 1 | .retired => 2

/-- ARRIVAL-LOST reason codes (section 4.8). -/
def LostReason.code : LostReason → Nat
  | .timeout => 1 | .badBody => 2 | .runEnded => 3

/-- ENDED reason codes (R138). -/
def EndReason.code : EndReason → Nat
  | .done => 1 | .stopped => 2 | .tapered => 3 | .retarget => 4 | .stall => 5 | .asleep => 6 | .lost => 7
  | .halted => 8 | .unstarted => 9

/-- Phase codes (section 8.10). -/
def Phase.code : Phase → Nat
  | .rising => 0 | .peak => 1 | .falling => 2 | .floor => 3

/-- A flag as a byte value. -/
def bit (b : Bool) : Nat := if b then 1 else 0

/-- Bay state codes (section 1.8). A MEMBER bay without a substate does not occur. -/
def Bay.code (b : Bay) : Nat :=
  match b.state, b.substate with
  | .empty, _ => 0
  | .blank, _ => 1
  | .foreign, _ => 2
  | .stale, _ => 3
  | .member, some .spinningUp => 5
  | .member, some .active => 6
  | .member, _ => 4

/-- Box condition flags: 0x01 torn tail, 0x02 configuration defaults (section 1.8). -/
def State.boxFlags (s : State) : Nat := bit s.journal.torn + 2 * bit s.loader.image.defaultsFlag

/-- The store condition as ANNOUNCE and QUERY show it; 0 while it is not yet known (R20; for ANNOUNCE, assumption
log 10). -/
def State.condCode (s : State) : Nat := (s.store.cond.map StoreCond.code).getD 0

/-- The power lamp (R165). -/
def State.powerLamp (s : State) : Bool := s.power.state ≠ .deep

/-- The fault lamp (R93). -/
def State.faultLamp (s : State) : Bool :=
  s.power.state ≠ .starting &&
    (s.store.cond = some .degraded || s.store.cond = some .broken || s.store.cond = some .absent)

/-- The pairing lamp (R11). -/
def State.pairingLamp (s : State) : Bool := s.link.window.isSome

/-- A bay's lamp (R115). -/
def State.bayLamp (s : State) (b : BayNo) : Bool := s.bays[b].faulted

end Sys2Proof.Machine
end

