-- ==== Sys2Proof/Machine/Operands.lean ====
section
/-! DEFINITION. Machine/Operands.lean: what a taken frame says: the ARP, IPv4, UDP and HBX tests of R2, R3 and R4, the kind
codes, and the layouts of the message bodies (sections 1.8, 3.10, 4.8, 8.10, 9.6, 10.9). -/

namespace Sys2Proof.Machine

/-- The message kinds a station may send (R5). -/
inductive Kind where
  | hello | pairAsk | pairConfirm | unpair | query | wake
  | runOpen | runClose | runAbort | offer | chunk
  | objectBegin | objectAppend | objectFinish | objectDelete | objectInfo
  | albumCreate | albumAdd | albumRemove | albumDrop | albumList
  | play | resume | rate | retarget | dropNext | stop | taperStop | allStop | viewReport
  | groupGo | groupHalt | groupCall | haltCall
  deriving DecidableEq, Repr

/-- Kind codes (section 1.8). -/
def Kind.code : Kind → Nat
  | .hello => 0x01 | .pairAsk => 0x02 | .pairConfirm => 0x03 | .unpair => 0x04 | .query => 0x05 | .wake => 0x06
  | .runOpen => 0x10 | .runClose => 0x11 | .runAbort => 0x12 | .offer => 0x13 | .chunk => 0x14
  | .objectBegin => 0x20 | .objectAppend => 0x21 | .objectFinish => 0x22 | .objectDelete => 0x23 | .objectInfo => 0x24
  | .albumCreate => 0x28 | .albumAdd => 0x29 | .albumRemove => 0x2A | .albumDrop => 0x2B | .albumList => 0x2C
  | .play => 0x30 | .resume => 0x31 | .rate => 0x32 | .retarget => 0x33 | .dropNext => 0x34 | .stop => 0x35
  | .taperStop => 0x36 | .allStop => 0x37 | .viewReport => 0x38
  | .groupGo => 0x40 | .groupHalt => 0x41 | .groupCall => 0x42 | .haltCall => 0x43

/-- The kinds in the order of the kind-code table. -/
def Kind.all : List Kind :=
  [.hello, .pairAsk, .pairConfirm, .unpair, .query, .wake, .runOpen, .runClose, .runAbort, .offer, .chunk,
   .objectBegin, .objectAppend, .objectFinish, .objectDelete, .objectInfo, .albumCreate, .albumAdd, .albumRemove,
   .albumDrop, .albumList, .play, .resume, .rate, .retarget, .dropNext, .stop, .taperStop, .allStop, .viewReport,
   .groupGo, .groupHalt, .groupCall, .haltCall]

/-- The kind of a code. -/
def Kind.ofCode (n : Nat) : Option Kind := Kind.all.find? fun k => k.code = n

/-- Kinds the box does not answer (R6). -/
def Kind.unanswered : Kind → Bool
  | .chunk | .viewReport | .groupGo | .groupHalt => true
  | _ => false

/-- An HBX message as it passes to the checks of R6: its source, whether it was addressed to the broadcast address, and
its header and body. -/
structure Msg where
  src : Addr
  bcast : Bool
  kind : Nat
  tag : Nat
  seq : Nat
  bodyLength : Nat
  flags : Nat
  body : List Byte
  deriving DecidableEq, Repr

/-- The body fits the layout of its kind: exactly the bytes the layout calls for, item counts in range (R4). -/
def Kind.fits (k : Kind) (b : List Byte) : Bool :=
  match k with
  | .pairAsk => b.length = 37
  | .runClose | .runAbort => b.length = 2
  | .offer => b.length = 4 + 24 * byteAt b 2 && 1 ≤ byteAt b 2 && byteAt b 2 ≤ 32
  | .chunk => 5 ≤ b.length && b.length ≤ 1028
  | .objectBegin => b.length = 3 + byteAt b 2 && byteAt b 2 ≤ 64
  | .objectAppend => b.length = 5 + 16 * byteAt b 4 && 1 ≤ byteAt b 4 && byteAt b 4 ≤ 64
  | .objectFinish | .objectDelete => b.length = 4
  | .objectInfo => b.length = 6
  | .albumCreate => b.length = 32
  | .albumAdd => b.length = 7
  | .albumRemove => b.length = 5
  | .albumDrop => b.length = 1
  | .albumList => b.length = 3
  | .play => b.length = 61
  | .resume => b.length = 16
  | .rate => b.length = 6
  | .retarget => b.length = 9
  | .dropNext | .stop | .taperStop => b.length = 1
  | .viewReport => b.length = 11
  | .groupGo | .groupHalt | .groupCall | .haltCall => b.length = 1
  | .hello | .pairConfirm | .unpair | .query | .wake | .runOpen | .allStop => b.length = 0

/-- The message is malformed (R4). -/
def Msg.malformed (m : Msg) : Bool :=
  match Kind.ofCode m.kind with
  | none => true
  | some k => 1200 < m.bodyLength || m.bodyLength ≠ m.body.length || m.flags ≠ 0 || !k.fits m.body

/-- What the Link Front makes of a frame it takes from the FIFO. -/
inductive Taken where
  /-- Dropped by the type, ARP, IPv4, UDP or HBX tests (R1 to R4). -/
  | drop
  /-- An ARP request for the box, from this MAC and IPv4 address (R2). -/
  | arp (mac : Mac) (ip : Ip)
  /-- An HBX message (R4). -/
  | hbx (msg : Msg)
  deriving DecidableEq, Repr

/-- The all-ones MAC address. -/
def allOnes : Mac := BitVec.allOnes 48

/-- A MAC address field. -/
def macAt (bs : List Byte) (o : Nat) : Mac := BitVec.ofNat 48 (field bs o 6)

/-- An IPv4 address field. -/
def ipAt (bs : List Byte) (o : Nat) : Ip := BitVec.ofNat 32 (field bs o 4)

/-- A content name field. -/
def nameAt (bs : List Byte) (o : Nat) : Name := BitVec.ofNat 128 (field bs o 16)

/-- The frame is admitted at the port (R1): its check, its length, its destination. -/
def frameAdmitted (mac : Mac) (f : List Byte) : Bool :=
  64 ≤ f.length && f.length ≤ 1518 && f.drop (f.length - 4) = frameCheck (f.take (f.length - 4)) &&
    (macAt f 0 = mac || macAt f 0 = allOnes)

/-- The data of a frame: what lies between its type and its check field. -/
def frameData (f : List Byte) : List Byte := (f.drop 14).take (f.length - 18)

/-- An ARP frame (R2). -/
def takeArp (img : ConfigImage) (d : List Byte) : Taken :=
  if 28 ≤ d.length && field d 0 2 = 1 && field d 2 2 = 0x0800 && byteAt d 4 = 6 && byteAt d 5 = 4 && field d 6 2 = 1 &&
      ipAt d 24 = img.ip then
    .arp (macAt d 8) (ipAt d 14)
  else .drop

/-- The tests of R4 on a UDP payload that drop a message silently, and its header fields. -/
def takeHbx (img : ConfigImage) (src : Addr) (bcast : Bool) (u : List Byte) : Taken :=
  if u.length < 14 || field u 0 2 ≠ 0x4842 || byteAt u 2 ≠ 1 || (0x80 ≤ byteAt u 3 && byteAt u 3 ≤ 0x85) ||
      src.mac = img.mac ||
      (bcast && !(byteAt u 3 = Kind.hello.code || byteAt u 3 = Kind.groupGo.code || byteAt u 3 = Kind.groupHalt.code)) then
    .drop
  else
    .hbx { src := src, bcast := bcast, kind := byteAt u 3, tag := field u 4 4, seq := field u 8 2,
           bodyLength := field u 10 2, flags := byteAt u 13, body := u.drop 14 }

/-- The UDP checksum of a datagram is absent or right (R3). -/
def udpCheckOk (d : List Byte) (udp : List Byte) : Bool :=
  field udp 6 2 = 0 ||
    onesSum (words16 ((d.drop 12).take 8) ++ [17, udp.length] ++ words16 udp) = 0xFFFF

/-- The tests of R3 on an IPv4 packet `d` with header length `h` and total length `n`. -/
def ipAccepted (img : ConfigImage) (d : List Byte) (h n : Nat) : Bool :=
  byteAt d 0 / 16 = 4 && 20 ≤ h && h + 8 ≤ n && n ≤ d.length && onesSum (words16 (d.take h)) = 0xFFFF &&
    field d 6 2 % 0x4000 = 0 && byteAt d 9 = 17 && (ipAt d 16 = img.ip || ipAt d 16 = img.broadcast) &&
    field d (h + 2) 2 = img.port && field d (h + 4) 2 = n - h && udpCheckOk d ((d.take n).drop h)

/-- An IPv4 frame (R3), then the drop tests of R4. -/
def takeIp (img : ConfigImage) (f d : List Byte) : Taken :=
  if ipAccepted img d (byteAt d 0 % 16 * 4) (field d 2 2) then
    takeHbx img
      { mac := macAt f 6, ip := ipAt d 12, port := field d (byteAt d 0 % 16 * 4) 2 }
      (ipAt d 16 = img.broadcast || macAt f 0 = allOnes)
      ((d.take (field d 2 2)).drop (byteAt d 0 % 16 * 4 + 8))
  else .drop

/-- What a frame taken from the FIFO is (R1 to R4). -/
def takeFrame (img : ConfigImage) (f : List Byte) : Taken :=
  if field f 12 2 = 0x0806 then takeArp img (frameData f)
  else if field f 12 2 = 0x0800 then takeIp img f (frameData f)
  else .drop

/-- One item of an OFFER (section 1.8). -/
structure OfferItem where
  name : Name
  length : Nat
  check : Nat
  deriving DecidableEq, Repr

/-- The items of an OFFER body. -/
def offerItems (b : List Byte) : List OfferItem :=
  (List.range (byteAt b 2)).map fun i =>
    { name := nameAt b (4 + 24 * i), length := field b (20 + 24 * i) 4, check := field b (24 + 24 * i) 4 }

/-- The names of an OBJECT-APPEND body (section 3.10). -/
def appendNames (b : List Byte) : List Name := (List.range (byteAt b 4)).map fun i => nameAt b (5 + 16 * i)

/-- A two's complement number of 32 bits (section 8.10). -/
def signed32 (n : Nat) : Int := if n < 2 ^ 31 then n else (n : Int) - 2 ^ 32

/-- Clamp a number into a range. -/
def clampNat (lo hi n : Nat) : Nat := max lo (min hi n)

/-- Profile codes (section 8.10). -/
def Profile.ofCode : Nat → Option Profile
  | 0 => some .steadyFloor
  | 1 => some .steadyPeak
  | 2 => some .shaped
  | _ => none

/-- The taper mode of a PLAY with its value clamped (R126). -/
def Taper.ofBody (mode value : Nat) : Option Taper :=
  match mode with
  | 0 => some .none
  | 1 => some (.auto (max (-1000000) (min 1000000 (signed32 value))))
  | 2 => some (.manual (min 16777215 value))
  | _ => Option.none

/-- Rates as a record takes them: F, P, A, B clamped (R126). -/
structure Rates where
  floor : Nat
  peak : Nat
  rise : Nat
  fall : Nat
  deriving DecidableEq, Repr

/-- The clamps of R126 on F, P, A and B. -/
def clampRates (f p a b : Nat) : Rates where
  floor := min (clampNat 8 100000 f) (clampNat 8 100000 p)
  peak := clampNat 8 100000 p
  rise := if a = 0 then 1 else a
  fall := if b = 0 then (if a = 0 then 1 else a) else b

/-- The lag band of R126. -/
def clampLag (n : Nat) : Nat := if n = 0 then 262144 else clampNat 16384 4194304 n

/-- The fields of a PLAY body that R126 can refuse hold: length, profile, taper mode, group, halt-with-group flag. -/
def playRefused (b : List Byte) : Bool :=
  field b 13 8 = 0 || (Profile.ofCode (byteAt b 21)).isNone || (Taper.ofBody (byteAt b 34) (field b 35 4)).isNone ||
    15 < byteAt b 55 || 1 < byteAt b 56

/-- The transfer record of a PLAY body, the length clamped to end at the object's end (R126). -/
def playTransfer (b : List Byte) (total : Nat) : Transfer :=
  let rates := clampRates (field b 22 4) (field b 26 4) (field b 30 2) (field b 32 2)
  { obj := field b 1 4
    start := field b 5 8
    length := min (field b 13 8) (total - field b 5 8)
    profile := (Profile.ofCode (byteAt b 21)).getD .steadyFloor
    floor := rates.floor
    peak := rates.peak
    rise := rates.rise
    fall := rates.fall
    taper := (Taper.ofBody (byteAt b 34) (field b 35 4)).getD .none
    mark1 := field b 39 8
    mark2 := field b 47 8
    group := byteAt b 55
    haltWithGroup := byteAt b 56 = 1
    lagBand := clampLag (field b 57 4) }

end Sys2Proof.Machine
end

