-- ==== Sys2Proof/Machine/Wire.lean ====
section
/-! DEFINITION. Machine/Wire.lean: byte layouts: frames out (R2, R9), labels (R117), journal blocks and records, checkpoint
headers and images (section 11.7, R184), the configuration record with its clamps, and the DRAM budget (R194 to R196). -/

namespace Sys2Proof.Machine

/-! ## Frames out -/

/-- An Ethernet frame: padded with zeros to the least length R1 admits, and closed by its check (assumption log 9). -/
def ethernet (dst src : Mac) (type : Nat) (data : List Byte) : List Byte :=
  let head := be 6 dst.toNat ++ be 6 src.toNat ++ be 2 type ++ data
  let body := head ++ List.replicate (60 - head.length) 0
  body ++ frameCheck body

/-- An ARP reply (R2). -/
def arpFrame (img : ConfigImage) (mac : Mac) (ip : Ip) : List Byte :=
  ethernet mac img.mac 0x0806
    (be 2 1 ++ be 2 0x0800 ++ [6, 4] ++ be 2 2 ++ be 6 img.mac.toNat ++ be 4 img.ip.toNat ++ be 6 mac.toNat ++ be 4 ip.toNat)

/-- An HBX message: header, then body (section 1.8). -/
def hbxBytes (kind tag seq status : Nat) (body : List Byte) : List Byte :=
  be 2 0x4842 ++ [1, byteOf kind] ++ be 4 tag ++ be 2 seq ++ be 2 body.length ++ [byteOf status, 0] ++ body

/-- A UDP datagram with its checksum; a checksum of 0 is sent as 0xFFFF (R9). -/
def udpBytes (src dst : Ip) (srcPort dstPort : Nat) (payload : List Byte) : List Byte :=
  let n := payload.length + 8
  let head := be 2 srcPort ++ be 2 dstPort ++ be 2 n
  let sum := onesSum (words16 (be 4 src.toNat ++ be 4 dst.toNat) ++ [17, n] ++ words16 (head ++ [0, 0] ++ payload))
  let c := 65535 - sum
  head ++ be 2 (if c = 0 then 65535 else c) ++ payload

/-- An IPv4 packet carrying UDP: time-to-live 64, don't-fragment, the given identification, header check (R9). The
type-of-service byte is 0 (assumption log 9). -/
def ipBytes (src dst : Ip) (ident : Nat) (udp : List Byte) : List Byte :=
  let head (c : Nat) := [0x45, 0] ++ be 2 (20 + udp.length) ++ be 2 ident ++ be 2 0x4000 ++ [64, 17] ++ be 2 c ++
    be 4 src.toNat ++ be 4 dst.toNat
  head (65535 - onesSum (words16 (head 0))) ++ udp

/-- The frame of an outgoing message (R2, R9). -/
def OutMsg.frame (img : ConfigImage) (ident : Nat) : OutMsg → List Byte
  | .arpReply mac ip => arpFrame img mac ip
  | .hbx dest kind tag seq status body =>
    ethernet dest.mac img.mac 0x0800
      (ipBytes img.ip dest.ip ident (udpBytes img.ip dest.ip img.port dest.port (hbxBytes kind tag seq status body)))

/-- The message is sent as an IPv4 frame, so it takes an identification (R9). -/
def OutMsg.isIp : OutMsg → Bool
  | .arpReply _ _ => false
  | .hbx _ _ _ _ _ _ => true

/-! ## Labels -/

/-- The label block (R117). -/
def Label.bytes (l : Label) : List Byte :=
  let body := padTo 4092
    (be 4 0x48424C42 ++ [1] ++ be 4 l.boxTag ++ be 4 l.storeId ++ be 4 l.generation ++ [byteOf l.members, byteOf l.own] ++
      (l.conds.map byteOf) ++ be 4 l.stripes)
  body ++ be 4 (bodyCheck body)

/-- What a label block read at probing says (R115, R187): no marker, a label that is not valid, or a valid label. A label with
marker and body check right and another format version is not valid, and R115 has no row for it: it is taken like one with a
bad check, so its disk shows FOREIGN (DESIGN CHOICE, assumption log 41). -/
def readLabel (b : List Byte) : LabelRead :=
  if field b 0 4 ≠ 0x48424C42 then .blank
  else if byteAt b 4 ≠ 1 || field b 4092 4 ≠ bodyCheck (padTo 4092 b) then .bad
  else .good
    { boxTag := field b 5 4, storeId := field b 9 4, generation := field b 13 4, members := byteAt b 17,
      own := byteAt b 18, conds := (List.range 4).map fun i => byteAt b (19 + i), stripes := field b 23 4 }

/-! ## Journal records and blocks -/

/-- A list of names, 16 bytes each. -/
def nameBytes (ns : List Name) : List Byte := ns.flatMap fun n => be 16 n.toNat

/-- Kind code and fields of a record (section 11.7). -/
def Record.parts : Record → Nat × List Byte
  | .peerEnrolled slot mac tag roles quota =>
    (1, be 1 slot ++ be 6 mac.toNat ++ be 4 tag ++ [roles] ++ be 4 quota)
  | .peerRemoved slot tag => (2, be 1 slot ++ be 4 tag)
  | .chunkStored name length check stripe dataSlot payer =>
    (3, be 16 name.toNat ++ be 4 length ++ be 4 check ++ be 4 stripe ++ be 1 dataSlot ++ be 1 (payer.getD 0xFF))
  | .chunkFreed name => (4, be 16 name.toNat)
  | .chunkLost name => (5, be 16 name.toNat)
  | .objectComplete id owner caption total names =>
    (6, be 4 id ++ be 1 owner ++ be 1 caption.length ++ padTo 64 caption ++ be 2 total ++ be 1 names.length ++ nameBytes names)
  | .objectMore id names => (7, be 4 id ++ be 1 names.length ++ nameBytes names)
  | .objectRetired id => (8, be 4 id)
  | .objectRemoved id => (9, be 4 id)
  | .albumMade album owner label => (10, be 1 album ++ be 1 owner ++ padTo 32 label)
  | .albumEntryAdded album obj position => (11, be 1 album ++ be 4 obj ++ be 2 position)
  | .albumEntryRemoved album position => (12, be 1 album ++ be 2 position)
  | .albumDropped album => (13, be 1 album)
  | .counters obj tag run => (14, be 4 obj ++ be 4 tag ++ be 2 run)

/-- A record's bytes: kind, field length, fields (section 11.7). -/
def Record.bytes (r : Record) : List Byte := be 1 r.parts.1 ++ be 2 r.parts.2.length ++ r.parts.2

/-- Bytes a record takes in a block. -/
def Record.size (r : Record) : Nat := r.parts.2.length + 3

/-- The record of a kind code and its fields; none for a code that is no record. -/
def Record.ofParts (kind : Nat) (f : List Byte) : Option Record :=
  match kind with
  | 1 => some (.peerEnrolled (byteAt f 0) (macAt f 1) (field f 7 4) (f.getD 11 0) (field f 12 4))
  | 2 => some (.peerRemoved (byteAt f 0) (field f 1 4))
  | 3 => some (.chunkStored (nameAt f 0) (field f 16 4) (field f 20 4) (field f 24 4) (byteAt f 28)
      (if byteAt f 29 = 0xFF then none else some (byteAt f 29)))
  | 4 => some (.chunkFreed (nameAt f 0))
  | 5 => some (.chunkLost (nameAt f 0))
  | 6 => some (.objectComplete (field f 0 4) (byteAt f 4) ((f.drop 6).take (byteAt f 5)) (field f 70 2)
      ((List.range (byteAt f 72)).map fun i => nameAt f (73 + 16 * i)))
  | 7 => some (.objectMore (field f 0 4) ((List.range (byteAt f 4)).map fun i => nameAt f (5 + 16 * i)))
  | 8 => some (.objectRetired (field f 0 4))
  | 9 => some (.objectRemoved (field f 0 4))
  | 10 => some (.albumMade (byteAt f 0) (byteAt f 1) ((f.drop 2).take 32))
  | 11 => some (.albumEntryAdded (byteAt f 0) (field f 1 4) (field f 5 2))
  | 12 => some (.albumEntryRemoved (byteAt f 0) (field f 1 2))
  | 13 => some (.albumDropped (byteAt f 0))
  | 14 => some (.counters (field f 0 4) (field f 4 4) (field f 8 2))
  | _ => none

/-- Up to `n` records from a byte string; reading ends at the first that is none. -/
def readRecords : Nat → List Byte → List Record
  | 0, _ => []
  | n + 1, bs =>
    if bs.length < 3 then []
    else match Record.ofParts (byteAt bs 0) ((bs.drop 3).take (field bs 1 2)) with
      | none => []
      | some r => r :: readRecords n (bs.drop (3 + field bs 1 2))

/-- A journal block's 4,096 bytes (section 11.7); of a sequence past 64 bits the low 64 (DESIGN CHOICE, assumption log 41). -/
def blockImage (storeId seq : Nat) (records : List Record) : List Byte :=
  let body := padTo 4092 (be 8 seq ++ be 4 storeId ++ be 2 records.length ++ records.flatMap Record.bytes)
  body ++ be 4 (bodyCheck body)

/-- Bytes the records of a block take. -/
def Block.used (b : Block) : Nat := (b.records.map Record.size).sum

/-! ## Checkpoints -/

/-- A checkpoint header's 4,096 bytes (section 11.7); of a number past 4,294,967,295 the low 32 bits (DESIGN CHOICE, assumption
log 41). -/
def Header.bytes (h : Header) : List Byte :=
  let body := padTo 4092
    (be 4 0x48424350 ++ be 4 h.storeId ++ be 4 h.number ++ be 8 h.start ++ be 4 h.length ++ be 4 h.check)
  body ++ be 4 (bodyCheck body)

/-- A valid checkpoint header of a store (R189). -/
def readHeader (storeId : Nat) (b : List Byte) : Option Header :=
  if field b 0 4 = 0x48424350 && field b 4092 4 = bodyCheck (padTo 4092 b) && field b 4 4 = storeId then
    some { storeId := field b 4 4, number := field b 8 4, start := field b 12 8, length := field b 20 4, check := field b 24 4 }
  else none

/-- The records of one object of `total` names, as far as its list goes: OBJECT-COMPLETE with its continuations (R44). -/
def objectParts (id owner : Nat) (caption : List Byte) (total : Nat) (names : List Name) : List Record :=
  .objectComplete id owner caption total (names.take 200) ::
    (List.range ((names.length - 200 + 199) / 200)).map fun i => .objectMore id ((names.drop (200 + 200 * i)).take 200)

/-- The records that rebuild tables. A checkpoint image is their bytes one after another (DESIGN CHOICE, assumption
log 11: the manual gives what the image holds, not its byte layout). An object whose continuations do not all stand before the
start sequence is held as far as they give it, and those behind complete it at replay (assumption log 27). -/
def Loaded.records (t : Loaded) : List Record :=
  [.counters t.objCounter t.tagCounter t.runCounter] ++
  t.peers.map (fun p => .peerEnrolled p.slot p.mac p.tag p.roles p.quota) ++
  t.chunks.flatMap (fun c => .chunkStored c.name c.length c.check c.loc.1 c.loc.2 c.payer ::
    (if c.lost then [.chunkLost c.name] else [])) ++
  t.objs.flatMap (fun o =>
    objectParts o.id o.owner o.caption o.total o.names ++ (if o.retired then [.objectRetired o.id] else [])) ++
  t.albums.flatMap (fun a => .albumMade a.1 a.2.owner a.2.label ::
    a.2.entries.zipIdx.map fun e => .albumEntryAdded a.1 e.1 e.2)

/-- The bytes of a checkpoint image. -/
def Loaded.image (t : Loaded) : List Byte := t.records.flatMap Record.bytes

/-- The replay effect of one record on the tables (section 11.2, R10, R34, R37, R55). -/
def Loaded.apply (t : Loaded) (r : Record) : Loaded :=
  match r with
  | .peerEnrolled slot mac tag roles quota =>
    { t with peers := t.peers.filter (·.slot ≠ slot) ++ [{ slot := slot, mac := mac, tag := tag, roles := roles, quota := quota }] }
  | .peerRemoved slot _ =>
    { t with
      peers := t.peers.filter (·.slot ≠ slot)
      chunks := t.chunks.map fun c => if c.payer = some slot then { c with payer := none } else c }
  | .chunkStored name length check stripe dataSlot payer =>
    let c : LoadedChunk := { name := name, length := length, check := check, loc := (stripe, dataSlot), payer := payer, lost := false }
    if t.chunks.any (·.name = name) then { t with chunks := t.chunks.map fun d => if d.name = name then c else d }
    else { t with chunks := t.chunks ++ [c] }
  | .chunkFreed name => { t with chunks := t.chunks.filter (·.name ≠ name) }
  | .chunkLost name => { t with chunks := t.chunks.map fun c => if c.name = name then { c with lost := true } else c }
  | .objectComplete id owner caption total names =>
    { t with objs := t.objs.filter (·.id ≠ id) ++
        [{ id := id, owner := owner, caption := caption, total := total, names := names, retired := false }] }
  | .objectMore id names =>
    { t with objs := t.objs.map fun o => if o.id = id && o.names.length < o.total then { o with names := o.names ++ names } else o }
  | .objectRetired id => { t with objs := t.objs.map fun o => if o.id = id then { o with retired := true } else o }
  | .objectRemoved id => { t with objs := t.objs.filter (·.id ≠ id) }
  | .albumMade album owner label =>
    { t with albums := t.albums.filter (·.1 ≠ album) ++ [(album, { owner := owner, label := label, entries := [] })] }
  | .albumEntryAdded album obj position =>
    { t with albums := t.albums.map fun a =>
        if a.1 = album then (a.1, { a.2 with entries := a.2.entries.take position ++ [obj] ++ a.2.entries.drop position }) else a }
  | .albumEntryRemoved album position =>
    { t with albums := t.albums.map fun a => if a.1 = album then (a.1, { a.2 with entries := a.2.entries.eraseIdx position }) else a }
  | .albumDropped album => { t with albums := t.albums.filter (·.1 ≠ album) }
  | .counters obj tag run => { t with objCounter := obj, tagCounter := tag, runCounter := run }

/-- Replay of records in journal order. -/
def Loaded.replay (t : Loaded) (rs : List Record) : Loaded := rs.foldl Loaded.apply t

/-- How a ring block read at replay is judged (R190). -/
inductive BlockRead where
  | taken (records : List Record)
  | stop (torn : Bool)
  deriving DecidableEq, Repr

/-- The judgement of R190 on a block read where sequence `expected` is due. -/
def readBlock (storeId expected : Nat) (b : List Byte) : BlockRead :=
  if field b 0 8 = 0 then .stop false
  else if field b 4092 4 ≠ bodyCheck (padTo 4092 b) then .stop true
  else if field b 8 4 = storeId && field b 0 8 = expected then
    .taken (readRecords (field b 12 2) ((b.drop 14).take Config.blockRecordBytes))
  else .stop false

/-! ## Configuration -/

/-- The greatest power of two in 1..128 at or below a value; 1 for 0 (R195). -/
def powerOfTwo (n : Nat) : Nat :=
  if 128 ≤ n then 128 else if 64 ≤ n then 64 else if 32 ≤ n then 32 else if 16 ≤ n then 16 else if 8 ≤ n then 8
  else if 4 ≤ n then 4 else if 2 ≤ n then 2 else 1

/-- The configuration record is good (R194). -/
def configGood (b : List Byte) : Bool :=
  b.length = 256 && field b 0 4 = 0x48424346 && byteAt b 4 = 1 && field b 252 4 = bodyCheck (b.take 252)

/-- The fields of a good record, each clamped as R195 gives. -/
def configFields (b : List Byte) : ConfigImage :=
  let d := ConfigImage.defaults
  { mac := if byteAt b 5 % 2 = 1 || field b 5 6 = 0 then d.mac else macAt b 5
    ip := if field b 11 4 = 0 || field b 11 4 = 0xFFFFFFFF then d.ip else ipAt b 11
    broadcast := if field b 15 4 = 0 then d.broadcast else ipAt b 15
    port := if field b 19 2 = 0 then d.port else field b 19 2
    boxTag := field b 21 4
    label := (b.drop 25).take 32
    stagingPages := clampNat 256 8192 (field b 57 2)
    cachePages := clampNat 64 2048 (field b 59 2)
    indexCapacity := clampNat 65536 8388608 (field b 61 4) / 65536 * 65536
    objectCapacity := clampNat 4096 524288 (field b 65 4) / 4096 * 4096
    diskIdleMin := clampNat 1 240 (field b 69 2)
    deepIdleMin := if field b 71 2 = 0 then 0 else clampNat 5 1440 (field b 71 2)
    qualifierCount := powerOfTwo (byteAt b 73)
    qualifierWindow := clampNat 10 600 (field b 74 2)
    qualifierSpacing := clampNat 0 60000 (field b 76 2)
    highWater := clampNat 50 95 (byteAt b 78)
    kLock := clampNat 1 15 (byteAt b 79)
    kUnlock := clampNat 1 15 (byteAt b 80)
    quotaCap := clampNat 0 8388608 (field b 81 4)
    pairingWindow := clampNat 30 600 (field b 85 2)
    autoRebuild := byteAt b 87 ≠ 0
    defaultsFlag := false }

/-- The configuration the loader takes from what the flash answered (R194). -/
def configOf (answer : Option (List Byte)) : ConfigImage :=
  match answer with
  | none => ConfigImage.defaults
  | some b => if configGood b then configFields b else ConfigImage.defaults

/-- The DRAM requirement in bytes (R196). -/
def dramNeed (c : ConfigImage) : Nat :=
  c.indexCapacity * 48 + c.objectCapacity * 96 + (c.stagingPages + c.cachePages) * 65536 + 160 * Config.mib

/-- One lowering step of R196; at every minimum nothing is left to lower. -/
def budgetStep (c : ConfigImage) : ConfigImage :=
  if 65536 < c.indexCapacity then { c with indexCapacity := max 65536 (c.indexCapacity - 65536) }
  else if 4096 < c.objectCapacity then { c with objectCapacity := max 4096 (c.objectCapacity - 4096) }
  else if 256 < c.stagingPages then { c with stagingPages := max 256 (c.stagingPages - 256) }
  else { c with cachePages := max 64 (c.cachePages - 64) }

/-- Step until the requirement fits, at most `n` times (R196). -/
def budgetFit (dram : Nat) : Nat → ConfigImage → ConfigImage
  | 0, c => c
  | n + 1, c => if dramNeed c ≤ dram then c else budgetFit dram n (budgetStep c)

/-- The DRAM budget (R196). From the greatest values there are at most 318 steps. -/
def budget (straps : Straps) (c : ConfigImage) : ConfigImage :=
  budgetFit (if straps.dramGiB then 1024 * Config.mib else 512 * Config.mib) 400 c

end Sys2Proof.Machine
end

