-- ==== Sys2Proof/Machine/Ops.lean ====
section
/-! DEFINITION. Machine/Ops.lean: the shared operations: finding and changing one item of a table, queueing a message,
starting timers, page grants, and the form of every piece of work: a state and the tasks still to carry out. -/

namespace Sys2Proof.Machine

/-- A state, and the tasks it leaves to carry out, in order. -/
abbrev Work := State × List Task

/-- Nothing to do. -/
def State.idle (s : State) : Work := (s, [])

/-! ## Peers -/

/-- The ENROLLED entry of a peer slot. -/
def State.peer (s : State) (n : Nat) : Option Peer := (s.link.peers[n]?).join

/-- Put an entry into a peer slot. -/
def State.setPeer (s : State) (n : Nat) (p : Option Peer) : State :=
  { s with link.peers := s.link.peers.setIfInBounds n p }

/-- Change the entry of a peer slot. -/
def State.updPeer (s : State) (n : Nat) (f : Peer → Peer) : State := s.setPeer n ((s.peer n).map f)

/-- The slot whose entry holds a MAC address (R6). -/
def State.peerOf (s : State) (mac : Mac) : Option Nat := s.link.peers.toList.findIdx? fun p => p.any fun q => q.mac = mac

/-- The table of peers is not consulted while the box is STARTING or the store is ABSENT (R10). -/
def State.unconsulted (s : State) : Bool := s.power.state = .starting || s.store.cond = some .absent

/-- The tag a REPLY to a MAC address carries: its peer's tag, or 0 (R8, R10). -/
def State.tagOf (s : State) (mac : Mac) : Nat :=
  if s.unconsulted then 0 else (((s.peerOf mac).bind s.peer).map (·.tag)).getD 0

/-- The number of ENROLLED entries. -/
def State.peerCount (s : State) : Nat := s.link.peers.toList.countP (·.isSome)

/-! ## Tables -/

/-- The entry of a content name. -/
def State.entry? (s : State) (n : Name) : Option Entry := s.index.find? fun e => e.name = n

/-- Change the entry of a content name. -/
def State.updEntry (s : State) (n : Name) (f : Entry → Entry) : State :=
  { s with index := s.index.map fun e => if e.name = n then f e else e }

/-- Remove the entry of a content name. -/
def State.dropEntry (s : State) (n : Name) : State := { s with index := s.index.filter fun e => e.name ≠ n }

/-- The object record of an id. -/
def State.obj? (s : State) (id : Nat) : Option Obj := s.tables.objs.find? fun o => o.id = id

/-- Change the object record of an id. -/
def State.updObj (s : State) (id : Nat) (f : Obj → Obj) : State :=
  { s with tables.objs := s.tables.objs.map fun o => if o.id = id then f o else o }

/-- The album of an id, none when FREE. -/
def State.album? (s : State) (a : Nat) : Option Album := (s.tables.albums[a]?).join

/-- Put an album, or nothing, at an id. -/
def State.setAlbum (s : State) (a : Nat) (v : Option Album) : State :=
  { s with tables.albums := s.tables.albums.setIfInBounds a v }

/-- The run record of an id. -/
def State.run? (s : State) (id : Nat) : Option Run := s.ingest.runs.find? fun r => r.id = id

/-- Change the run record of an id. -/
def State.updRun (s : State) (id : Nat) (f : Run → Run) : State :=
  { s with ingest.runs := s.ingest.runs.map fun r => if r.id = id then f r else r }

/-- The use of an arrival record. -/
def State.arrival? (s : State) (i : Fin 32) : Option Arrival := s.ingest.arrivals[i].use

/-- Change the use of an arrival record. -/
def State.setArrival (s : State) (i : Fin 32) (r : ArrivalRec) : State :=
  { s with ingest.arrivals := s.ingest.arrivals.set i r }

/-- The arrival number of a record (R70). -/
def State.arrivalNumber (s : State) (i : Fin 32) : Nat := i + 32 * s.ingest.arrivals[i].gen

/-- The copy of a number. -/
def State.copy? (s : State) (id : Nat) : Option Copy := s.buf.copies.find? fun c => c.id = id

/-- Change the copy of a number. -/
def State.updCopy (s : State) (id : Nat) (f : Copy → Copy) : State :=
  { s with buf.copies := s.buf.copies.map fun c => if c.id = id then f c else c }

/-- The copy goes to the most-recently-used end (R82). -/
def State.touchCopy (s : State) (id : Nat) : State :=
  { s with buf.copies := s.buf.copies.filter (fun c => c.id ≠ id) ++ s.buf.copies.filter fun c => c.id = id }

/-- The copy of a name without drop mark (R82). -/
def State.liveCopy? (s : State) (n : Name) : Option Copy := s.buf.copies.find? fun c => c.name = n && !c.drop

/-- The record of a stripe that is not FREE. -/
def State.stripe? (s : State) (n : Nat) : Option Stripe := (s.store.table.find? fun p => p.1 = n).map (·.2)

/-- Change the record of a stripe. -/
def State.updStripe (s : State) (n : Nat) (f : Stripe → Stripe) : State :=
  { s with store.table := s.store.table.map fun p => if p.1 = n then (p.1, f p.2) else p }

/-- A stripe that was FREE gets a record; the table stays in rising order. -/
def insertStripe (n : Nat) (r : Stripe) : List (Nat × Stripe) → List (Nat × Stripe)
  | [] => [(n, r)]
  | p :: ps => if n < p.1 then (n, r) :: p :: ps else p :: insertStripe n r ps

/-- A stripe becomes FREE. -/
def State.dropStripe (s : State) (n : Nat) : State :=
  { s with store.table := s.store.table.filter fun p => p.1 ≠ n }

/-- The reconstruction job of a number. -/
def State.job? (s : State) (id : Nat) : Option Job := s.store.jobs.find? fun j => j.id = id

/-- Change the reconstruction job of a number. -/
def State.updJob (s : State) (id : Nat) (f : Job → Job) : State :=
  { s with store.jobs := s.store.jobs.map fun j => if j.id = id then f j else j }

/-- The member entry of an index. -/
def State.member? (s : State) (m : Nat) : Option Member := s.store.members[m]?

/-- Change the member entry of an index. -/
def State.updMember (s : State) (m : Nat) (f : Member → Member) : State :=
  { s with store.members := s.store.members.modify m f }

/-- Change a bay record. -/
def State.updBay (s : State) (b : BayNo) (f : Bay → Bay) : State := { s with bays := s.bays.set b (f s.bays[b]) }

/-- Change a stream slot. -/
def State.updSlot (s : State) (i : SlotNo) (f : Slot → Slot) : State := { s with slots := s.slots.set i (f s.slots[i]) }

/-- The bays in order. -/
def bayNos : List BayNo := List.finRange 4

/-- The stream slots in order. -/
def slotNos : List SlotNo := List.finRange 8

/-- D, the number of members (R92). -/
def State.disks (s : State) : Nat := s.store.members.length

/-- Member indexes in order. -/
def State.memberIds (s : State) : List Nat := List.range s.disks

/-- The condition of a member index. -/
def State.condOf (s : State) (m : Nat) : Option MemberCond := (s.member? m).map (·.cond)

/-- The bay of a member index. -/
def State.bayOf (s : State) (m : Nat) : Option BayNo := (s.member? m).bind (·.bay)

/-- Members that are not FAILED, in member order. -/
def State.liveMembers (s : State) : List Nat := s.memberIds.filter fun m => s.condOf m ≠ some .failed

/-- Bays of the members that are not FAILED, in member order. -/
def State.liveBays (s : State) : List BayNo := s.liveMembers.filterMap s.bayOf

/-- A FAILED member. -/
def State.failedMember (s : State) : Option Nat := s.memberIds.find? fun m => s.condOf m = some .failed

/-- A REBUILDING member. -/
def State.rebuildingMember (s : State) : Option Nat := s.memberIds.find? fun m => s.condOf m = some .rebuilding

/-- The store is BROKEN. -/
def State.broken (s : State) : Bool := s.store.cond = some .broken

/-- The store is ABSENT. -/
def State.absent (s : State) : Bool := s.store.cond = some .absent

/-- The number of FREE stripes; 0 while the store is ABSENT or the box is STARTING (R18). -/
def State.freeStripes (s : State) : Nat := if s.unconsulted then 0 else s.store.stripeCount - s.store.table.length

/-- IDLE slots with no owner and no resume record (R18). -/
def State.freeSlots (s : State) : Nat :=
  s.slots.toList.countP fun x => x.state = .idle && x.owner.isNone && x.resume.isNone

/-- IDLE slots (R20). -/
def State.idleSlots (s : State) : Nat := s.slots.toList.countP fun x => x.state = .idle

/-! ## Messages -/

/-- A message joins the control queue, or is dropped when 64 are queued (R16). -/
def State.send (s : State) (m : OutMsg) : State :=
  if s.link.control.length < Config.controlPlaces then { s with link.control := s.link.control ++ [m] } else s

/-- A REPLY to a request, with its status and the bytes after its kind code (R8). -/
def State.replyTo (s : State) (m : Msg) (status : Nat) (data : List Byte) : OutMsg :=
  .hbx m.src kindReply (s.tagOf m.src.mac) m.seq status (byteOf m.kind :: data)

/-- The box answers a request. -/
def State.reply (s : State) (m : Msg) (status : Nat) (data : List Byte) : State := s.send (s.replyTo m status data)

/-- The request is refused with a status. -/
def State.refuse (s : State) (m : Msg) (status : Nat) : Work := (s.reply m status [], [])

/-- Where a broadcast goes (R9). -/
def State.broadcast (s : State) : Addr :=
  { mac := allOnes, ip := s.loader.image.broadcast, port := s.loader.image.port }

/-- The body of an ANNOUNCE (R18, section 1.8). -/
def State.announceBody (s : State) : List Byte :=
  be 4 s.loader.image.boxTag ++ padTo 32 s.loader.image.label ++
    [byteOf s.power.state.code, byteOf s.condCode] ++ be 4 s.freeStripes ++ [byteOf s.freeSlots, byteOf s.boxFlags]

/-- A broadcast ANNOUNCE is queued (R18). -/
def State.announce (s : State) : State := s.send (.hbx s.broadcast kindAnnounce 0 0 0 s.announceBody)

/-! ## Times -/

/-- Time moves on to that of an event; it does not move back (assumption log 1). -/
def State.atTime (s : State) (t : Nat) : State := { s with now := max s.now t }

/-- The box is in DEEP: the ports issue nothing, probe nothing and run no timer (R124, R176). -/
def State.inDeep (s : State) : Bool := s.power.state = .deep

/-- A timer with this expiry has expired. -/
def State.due (s : State) (expiry : Option Nat) : Bool := expiry.any fun e => e ≤ s.now

/-- The disk idle timer's full time (R167). -/
def State.diskIdleEnd (s : State) : Nat := s.now + s.loader.image.diskIdleMin * 60000

/-- The DEEP idle timer restarts, which clears the DEEP-due mark; it does not run in STARTING or DEEP, nor with a DEEP
idle time of 0 (R173). -/
def State.restartDeepIdle (s : State) : State :=
  if s.power.state = .starting || s.power.state = .deep then s
  else
    { s with
      power.deepDue := false
      power.deepIdle :=
        if s.loader.image.deepIdleMin = 0 then none else some (s.now + s.loader.image.deepIdleMin * 60000) }

/-- Entry to a power state: the state, its ANNOUNCE, and the announce timer (R18, R165). -/
def State.enterPower (s : State) (p : PowerState) : State :=
  let s := ({ s with power.state := p }).announce
  { s with link.announce := if p = .deep then none else some (s.now + Config.announcePeriod) }

/-! ## Pages -/

/-- Pages a chunk of this length takes (R21). -/
def pagesFor (length : Nat) : Nat := (length + Config.pageBytes - 1) / Config.pageBytes

/-- Segments a chunk of this length takes (R69). -/
def segmentsFor (length : Nat) : Nat := (length + Config.segmentBytes - 1) / Config.segmentBytes

/-- The number of FREE staging pages (R77). -/
def State.freePages (s : State) : Nat := s.loader.image.stagingPages - s.buf.pool.length

/-- The lowest `n` numbers below `bound` that a list of used numbers leaves (assumption log 12). -/
def lowestFree (bound n : Nat) (used : List Nat) : List Nat :=
  ((List.range bound).filter fun p => !used.contains p).take n

/-- The FREE staging pages a grant of `n` takes. -/
def State.pickPages (s : State) (n : Nat) : List Nat := lowestFree s.loader.image.stagingPages n (s.buf.pool.map (·.1))

/-- Put a page into the pool's list, kept in rising order. -/
def insertPage (p : Nat) (c : PageCond) : List (Nat × PageCond) → List (Nat × PageCond)
  | [] => [(p, c)]
  | q :: qs => if p < q.1 then (p, c) :: q :: qs else if p = q.1 then (p, c) :: qs else q :: insertPage p c qs

/-- Pages take a condition. -/
def State.setPages (s : State) (pages : List Nat) (c : PageCond) : State :=
  { s with buf.pool := pages.foldl (fun acc p => insertPage p c acc) s.buf.pool }

/-- Pages become FREE. -/
def State.freeUp (s : State) (pages : List Nat) : State :=
  { s with buf.pool := s.buf.pool.filter fun q => !pages.contains q.1 }

/-- Pages in one condition. -/
def State.pagesIn (s : State) (c : PageCond) : Nat := s.buf.pool.countP fun q => q.2 = c

/-- The read-cache pages in condition COPY. -/
def State.cachePagesUsed (s : State) : List Nat := s.buf.copies.flatMap (·.pages)

/-- The number of FREE read-cache pages (R77). -/
def State.freeCachePages (s : State) : Nat := s.loader.image.cachePages - s.cachePagesUsed.length

/-! ## The DRAM port -/

/-- The requesters in the arbiter's order (R90). -/
def Requester.order : List Requester :=
  [.linkFront, .lane0, .lane1, .xor, .disk0, .disk1, .disk2, .disk3, .journal, .tables]

/-- The requesters in turn after the one last served (R90). -/
def requestersAfter (last : Requester) : List Requester :=
  let k := (Requester.order.findIdx fun r => r = last) + 1
  Requester.order.drop k ++ Requester.order.take k

/-- The requester an idle port serves: the next in turn with a transfer waiting (R90). -/
def Port.next? (p : Port) : Option Requester := (requestersAfter p.last).find? fun r => p.waiting.any fun x => x.1 = r

/-- An idle port serves the next requester in turn; in DEEP none is granted (R90). -/
def State.grantTurn (s : State) : State :=
  if s.buf.port.turn.isSome || s.power.state = .deep then s else { s with buf.port.turn := s.buf.port.next? }

/-- A requester issues a transfer of some bytes; an idle port serves it at once (R90). -/
def State.issue (s : State) (r : Requester) (bytes : Nat) : State :=
  if bytes = 0 then s
  else State.grantTurn { s with buf.port.waiting := s.buf.port.waiting ++ [(r, bytes)] }

/-- A requester issues several transfers, in order (R90). -/
def State.issueAll (s : State) (r : Requester) (bytes : List Nat) : State := bytes.foldl (fun s n => s.issue r n) s

/-- The requester of a bay's port (R90). -/
def diskRequester (b : BayNo) : Requester :=
  match b with
  | 0 => .disk0 | 1 => .disk1 | 2 => .disk2 | 3 => .disk3

/-! ## The check queue -/

/-- An ingest item joins the check queue, or the check wait list when 48 are queued (R72). -/
def State.queueIngestCheck (s : State) (i : CheckItem) : State :=
  if s.ingest.queue.length < Config.checkPlaces then { s with ingest.queue := s.ingest.queue ++ [i] }
  else { s with ingest.checkWait := s.ingest.checkWait ++ [i] }

/-- A read-verify item joins the check queue, or the verify wait list when 48 are queued (R85). -/
def State.queueVerifyCheck (s : State) (i : CheckItem) : State :=
  if s.ingest.queue.length < Config.checkPlaces then { s with ingest.queue := s.ingest.queue ++ [i] }
  else { s with buf.verifyWait := s.buf.verifyWait ++ [i] }

end Sys2Proof.Machine
end

