-- ==== Sys2Proof/Machine/Index.lean ====
section
/-! DEFINITION. Machine/Index.lean: the Content Index (Chapter 2): what its requests do to a chunk entry. -/

namespace Sys2Proof.Machine

/-! ## Counts the entry moves -/

/-- The payer's charged count falls by one (R34). -/
def State.uncharge (s : State) (payer : Option Nat) : State :=
  match payer with
  | none => s
  | some n => s.updPeer n fun p => { p with charged := p.charged - 1 }

/-- A stripe's live count rises by one (R96). -/
def State.liveUp (s : State) (n : Nat) : State := s.updStripe n fun r => { r with live := r.live + 1 }

/-- A stripe's live count falls by one (R96). -/
def State.liveDown (s : State) (n : Nat) : State := s.updStripe n fun r => { r with live := r.live - 1 }

/-- A stripe's hold count rises by one (R96). -/
def State.holdUp (s : State) (n : Nat) : State := s.updStripe n fun r => { r with hold := r.hold + 1 }

/-- A stripe's hold count falls by one (R96). -/
def State.holdDown (s : State) (n : Nat) : State := s.updStripe n fun r => { r with hold := r.hold - 1 }

/-- The live count of an entry's location falls, where the entry counts in it (R31). -/
def State.unlocate (s : State) (e : Entry) : State :=
  match e.loc with
  | none => s
  | some l => s.liveDown l.1

/-- The hold of an entry's prior state goes (R31). -/
def State.unhold (s : State) (e : Entry) : State :=
  match e.prior with
  | none => s
  | some l => s.holdDown l.1

/-- Stripes an entry is located in, or held to by its prior state (R106). -/
def Entry.stripes (e : Entry) : List Nat := (e.loc.toList ++ e.prior.toList).map (·.1)

/-! ## Creation and re-ingest -/

/-- A new entry of an OFFER item (R22). -/
def newEntry (name : Name) (length check run owner : Nat) (pages : List Nat) : Entry where
  name := name
  length := length
  check := check
  state := .arriving
  refcount := 0
  payer := some owner
  origin := some run
  pages := pages
  loc := none
  cached := false
  mark := false
  prior := none

/-- The entry is created and its payer charged (R22, R34). -/
def State.createEntry (s : State) (e : Entry) : State :=
  let s := { s with index := s.index ++ [e] }
  match e.payer with
  | none => s
  | some n => s.updPeer n fun p => { p with charged := p.charged + 1 }

/-- A LOST entry becomes ARRIVING: its location goes to its prior state and holds the old stripe (R28). -/
def State.reingest (s : State) (e : Entry) (run : Nat) (pages : List Nat) : State :=
  let s := s.updEntry e.name fun e =>
    { e with state := .arriving, prior := e.loc, loc := none, pages := pages, origin := some run }
  match e.loc with
  | none => s
  | some l => (s.liveDown l.1).holdUp l.1

/-! ## Freeing -/

/-- Freeing an entry in this state appends CHUNK-FREED (R31). -/
def Entry.freedRecord (e : Entry) : Bool :=
  match e.state with
  | .arriving => false
  | .checking => e.prior.isSome
  | .staged | .striping => e.mark
  | .stored | .lost => true

/-- The data slot of a stripe is marked: its entry was freed while STRIPING (R31, R102). -/
def State.markFilledFreed (s : State) (l : Loc) : State :=
  s.updStripe l.1 fun r => if r.ended then r else { r with filled := r.filled.modify l.2 fun f => { f with freed := true } }

/-- The pages of a freed entry that are due to become FREE at once: a STRIPING entry leaves its pages to its stripe until
the stripe's writes have ended (R31, R102). -/
def State.pagesOfFreed (s : State) (e : Entry) : List Nat :=
  match e.state with
  | .striping => if (e.loc.bind fun l => s.stripe? l.1).any (·.ended) then e.pages else []
  | _ => e.pages

/-- A STRIPING entry leaves its data slot to the stripe. -/
def State.leaveSlot (s : State) (e : Entry) : State :=
  match e.state, e.loc with
  | .striping, some l => s.markFilledFreed l
  | _, _ => s

/-- A CHUNK-FREED record of a chunk of these stripes is on its way to the journal (R89, R106). -/
def State.expectRelease (s : State) (stripes : List Nat) : State :=
  stripes.foldl (fun s n => s.updStripe n fun r => { r with releaseDue := r.releaseDue + 1 }) s

/-- The entry is freed and what it held is unwound (R31): the tables first, then the copy is dropped, the pages are returned,
and the CHUNK-FREED record is appended (DESIGN CHOICE, assumption log 42). -/
def freeEntry (name : Name) (s : State) : Work :=
  match s.entry? name with
  | none => s.idle
  | some e =>
    let pages := s.pagesOfFreed e
    let s := (((s.leaveSlot e).dropEntry name).uncharge e.payer).unlocate e |>.unhold e
    let s := { s with buf.staged := s.buf.staged.filter fun n => n ≠ name }
    let copies := if e.state = .stored then (s.liveCopy? name).toList.map fun c => Task.dropCopy c.id else []
    let judge := e.stripes.map Task.judgeStripe
    let records := if e.freedRecord then [.append (.chunkFreed name), .released e.stripes] else []
    let s := if e.freedRecord then s.expectRelease e.stripes else s
    (s, copies ++ (if pages.isEmpty then [] else [.pagesDue pages]) ++ judge ++ records ++ [.entryChanged name, .stagingDemand])

/-- The CHUNK-FREED record has been appended: its position is the release position of its stripes (R106). -/
def releasedStripes (stripes : List Nat) (s : State) : Work :=
  (stripes.foldl (fun s n => s.updStripe n fun r =>
      { r with releaseDue := r.releaseDue - 1, release := some s.journal.lastPos }) s,
   stripes.map .judgeStripe)

/-! ## Refcounts -/

/-- Answers to an increment request (R29). -/
inductive Increment where
  | missing | refLimit | ok
  deriving DecidableEq, Repr

/-- The answer of R29. -/
def State.incrementAnswer (s : State) (name : Name) : Increment :=
  match s.entry? name with
  | none => .missing
  | some e =>
    if e.state = .arriving || e.state = .checking then .missing
    else if Config.maxRefcount ≤ e.refcount then .refLimit else .ok

/-- The refcount rises by one; a STAGED entry rising from 0 loses its origin run (R29). -/
def Entry.counted (e : Entry) : Entry :=
  { e with refcount := e.refcount + 1, origin := if e.state = .staged then none else e.origin }

/-- The run exists and is OPEN. -/
def State.runOpen (s : State) (run : Option Nat) : Bool := (run.bind s.run?).any fun r => !r.closing

/-- The zero rule keeps the entry for now (R30). -/
def State.zeroKept (s : State) (e : Entry) : Bool :=
  e.state = .arriving || e.state = .checking || (e.state = .staged && s.runOpen e.origin)

/-- A decrement lowers the refcount and applies the zero rule (R30). -/
def decrement (name : Name) (s : State) : Work :=
  match s.entry? name with
  | none => s.idle
  | some e =>
    (s.updEntry name fun e => { e with refcount := e.refcount - 1 },
     if e.refcount - 1 = 0 && !s.zeroKept e then [.free name] else [])

/-! ## Arrival, check and loss -/

/-- The Content Index acts on an abandoned arrival (R24). -/
def abandonEntry (name : Name) (s : State) : Work :=
  match s.entry? name with
  | none => s.idle
  | some e =>
    if e.state ≠ .arriving && e.state ≠ .checking then s.idle
    else match e.prior with
      | none => ((s.dropEntry name).uncharge e.payer, [.pagesDue e.pages, .entryChanged name])
      | some l =>
        let s := ((s.updEntry name fun e => { e with state := .lost, loc := e.prior, prior := none, pages := [], origin := none }).liveUp l.1).holdDown l.1
        (s, [.pagesDue e.pages, .judgeStripe l.1] ++ (if e.refcount = 0 then [.free name] else [.entryChanged name]))

/-- The entry becomes STAGED and joins the staged list; its pages become STAGED (R23). -/
def State.stage (s : State) (e : Entry) : State :=
  let s := s.updEntry e.name fun e => { e with state := .staged, origin := if e.refcount = 0 then e.origin else none }
  { s.setPages e.pages .staged with buf.staged := s.buf.staged ++ [e.name] }

/-- A matching check result is taken against the entry as it stands (R23). -/
def checkedEntry (name : Name) (s : State) : Work :=
  match s.entry? name with
  | none => s.idle
  | some e =>
    if e.state ≠ .checking then s.idle
    else if e.refcount = 0 && !s.runOpen e.origin then (s, [.free name])
    else (s.stage e, [.stagingDemand, .entryChanged name, .walk])

/-- The Stripe Engine asks for an entry at a location to be marked LOST (R27). -/
def markLost (name : Name) (loc : Loc) (s : State) : Work :=
  match s.entry? name with
  | none => s.idle
  | some e =>
    if e.state = .stored && e.loc = some loc then
      (s.updEntry name fun e => { e with state := .lost, cached := false },
       .append (.chunkLost name) ::
         (s.buf.copies.filter fun c => c.name = name && c.loc = loc && !c.drop).flatMap
           (fun c => [Task.dropCopy c.id, Task.withdrawRead c.id]) ++ [.toldLost name])
    else s.idle

/-- The cached flag of a STORED entry; a report for any other entry changes no flag (R35). -/
def State.setCached (s : State) (name : Name) (b : Bool) : State :=
  s.updEntry name fun e => if e.state = .stored then { e with cached := b } else e

/-- The entry becomes STORED: it loses its pages and its prior state, and with it the hold on the old stripe (R26). -/
def State.storeEntry (s : State) (e : Entry) : State :=
  (s.updEntry e.name fun e => { e with state := .stored, pages := [], prior := none }).unhold e

/-- Entries orphan reclaim frees: STAGED, refcount 0, of the run's origin (R33); several are freed in the order of their
creation (DESIGN CHOICE, assumption log 38). -/
def State.orphans (s : State) (run : Nat) : List Name :=
  (s.index.filter fun e => e.state = .staged && e.refcount = 0 && e.origin = some run).map (·.name)

/-- Orphan reclaim (R33). -/
def reclaim (run : Nat) (s : State) : Work := (s, (s.orphans run).map .free)

end Sys2Proof.Machine
end

