-- ==== Sys2Proof/Machine/Link.lean ====
section
/-! DEFINITION. Machine/Link.lean: the Link Front (Chapter 1): frames in, the checks of R6, pairing, the transmit arbiter,
ANNOUNCE, HELLO and QUERY. -/

namespace Sys2Proof.Machine

/-! ## Frames in -/

/-- A frame from the PHY is admitted to the receive FIFO, or discarded at the port (R1). -/
def State.takeIn (s : State) (frame : List Byte) : State :=
  if s.loader.settled && frameAdmitted s.loader.image.mac frame && s.link.fifo.length < Config.fifoPlaces then
    { s with link.fifo := s.link.fifo ++ [frame] }
  else s

/-- The frame the Link Front takes next: the oldest, unless a full journal buffer stops it (R1, R89). -/
def State.headFrame (s : State) : Option Taken :=
  if s.buf.appendWait.isEmpty then s.link.fifo.head?.map (takeFrame s.loader.image) else none

/-- The Link Front has finished with its oldest frame (R1). -/
def State.popFrame (s : State) : State := { s with link.fifo := s.link.fifo.tail }

/-- The oldest frame is dropped, when the tests of R1 to R4 drop it. -/
def State.dropFrame (s : State) : State :=
  match s.headFrame with
  | some .drop => s.popFrame
  | _ => s

/-- The oldest frame is answered, when it is an ARP request for the box (R2). -/
def State.answerArp (s : State) : State :=
  match s.headFrame with
  | some (.arp mac ip) => s.popFrame.send (.arpReply mac ip)
  | _ => s

/-! ## The checks of R6 -/

/-- Senders R5 allows a kind, once identified. -/
def Kind.allows (k : Kind) (roles : Byte) : Bool :=
  match k with
  | .runOpen | .runClose | .runAbort | .offer | .chunk | .objectBegin | .objectAppend | .objectFinish | .objectDelete
  | .albumCreate | .albumAdd | .albumRemove | .albumDrop => hasRole roles roleContributor
  | .objectInfo | .albumList => hasRole roles roleContributor || hasRole roles roleViewer
  | .play | .resume | .rate | .retarget | .dropNext | .stop | .taperStop | .allStop | .viewReport =>
    hasRole roles roleViewer
  | .groupCall | .haltCall => hasRole roles roleViewer || hasRole roles roleBox
  | _ => true

/-- Outcomes of the checks of R6. -/
inductive Gate where
  /-- Dropped silently. -/
  | drop
  /-- Step 1 for an enrolled MAC address: the box leaves DEEP. -/
  | leaveDeep
  | refuse (status : Nat)
  /-- Step 7. -/
  | dispatch
  deriving DecidableEq, Repr

/-- An answered kind is refused; a kind the box does not answer is dropped (R6). -/
def Gate.refusing (k : Option Kind) (status : Nat) : Gate := if k.any Kind.unanswered then .drop else .refuse status

/-- The message is a HELLO or a QUERY. -/
def Msg.asksPresence (m : Msg) : Bool := m.kind = Kind.hello.code || m.kind = Kind.query.code

/-- Step 5 identifies the sender by its peer tag: the MAC address is enrolled and the tag is its entry's (R6). -/
def State.tagMatches (s : State) (m : Msg) : Bool :=
  (s.peerOf m.src.mac).any fun n => (s.peer n).any fun p => p.tag = m.tag

/-- Kinds that step 5 identifies by their peer tag (R6). -/
def Kind.tagged : Kind → Bool
  | .hello | .pairAsk | .pairConfirm | .groupGo | .groupHalt => false
  | _ => true

/-- The roles of the sender's entry. -/
def State.senderRoles (s : State) (m : Msg) : Byte := (((s.peerOf m.src.mac).bind s.peer).map (·.roles)).getD 0

/-- Steps 5 to 7 of R6 for a kind. -/
def State.gateKind (s : State) (m : Msg) (k : Kind) : Gate :=
  if k = .hello || k = .pairAsk || k = .pairConfirm then .dispatch
  else if k = .groupGo || k = .groupHalt then (if (s.peerOf m.src.mac).isSome then .dispatch else .drop)
  else if !s.tagMatches m then Gate.refusing (some k) stNotPaired
  else if !k.allows (s.senderRoles m) then Gate.refusing (some k) stNotAllowed
  else .dispatch

/-- The checks of R6 in order. A malformed HELLO outside STARTING and DEEP is refused with BAD_FORM by step 3, though R19 says
that no REPLY is sent for a HELLO (DESIGN CHOICE, assumption log 17). -/
def State.gate (s : State) (m : Msg) : Gate :=
  if s.power.state = .deep then (if (s.peerOf m.src.mac).isSome then .leaveDeep else .drop)
  else if s.power.state = .starting then
    (if m.asksPresence then .dispatch else Gate.refusing (Kind.ofCode m.kind) stStarting)
  else if m.malformed then Gate.refusing (Kind.ofCode m.kind) stBadForm
  else if s.absent then (if m.asksPresence then .dispatch else Gate.refusing (Kind.ofCode m.kind) stDiskFault)
  else match Kind.ofCode m.kind with
    | some k => s.gateKind m k
    | none => .drop

/-- The message passes step 5 on its peer tag, whatever its later verdict (R7). -/
def State.counts (s : State) (m : Msg) : Bool :=
  s.power.state ≠ .deep && s.power.state ≠ .starting && !m.malformed && !s.absent &&
    (Kind.ofCode m.kind).any Kind.tagged && s.tagMatches m

/-- The time last heard of each OPEN run a peer owns becomes now (R59). -/
def State.hearRuns (s : State) (n : Nat) : State :=
  { s with ingest.runs := s.ingest.runs.map fun (r : Run) => if r.owner = n && !r.closing then { r with heard := s.now } else r }

/-- The effects of R7: the peer's last address, the time last heard of its OPEN runs (R59), the DEEP idle timer. -/
def State.heard (s : State) (m : Msg) : State :=
  match s.peerOf m.src.mac with
  | none => s
  | some n =>
    let s := s.updPeer n fun p => { p with last := some (m.src.ip, m.src.port) }
    (s.hearRuns n).restartDeepIdle

/-- A pending ask is discarded by any HBX message but PAIR-CONFIRM from its MAC address (R13). -/
def State.discardAsk (s : State) (m : Msg) : State :=
  if m.kind = Kind.pairConfirm.code then s else { s with link.asks := s.link.asks.filter fun a => a.mac ≠ m.src.mac }

/-- The HBX message in the oldest frame, when it is one this event takes, passes the checks of R6 and is handed to its
owning block. -/
def State.takeMessage (s : State) (mine : Msg → Bool) (act : Msg → State → Work) : Work :=
  match s.headFrame with
  | some (.hbx m) =>
    if mine m then
      let g := s.gate m
      let before := s
      let s := s.popFrame.discardAsk m
      let s := if before.counts m then s.heard m else s
      match g with
      | .drop => s.idle
      | .leaveDeep => (s, [.exitDeep (if m.kind = Kind.wake.code then .wake else .message)])
      | .refuse status => s.refuse m status
      | .dispatch => act m s
    else s.idle
  | _ => s.idle

/-- The message is of a kind. -/
def isKind (k : Kind) (m : Msg) : Bool := m.kind = k.code

/-- The message's kind is not in the kind-code table (R4). -/
def isUnknown (m : Msg) : Bool := (Kind.ofCode m.kind).isNone

/-- The sender's peer slot (R6). -/
def State.sender (s : State) (m : Msg) : Nat := (s.peerOf m.src.mac).getD 0

/-! ## HELLO -/

/-- A HELLO is answered with a unicast ANNOUNCE (R19). -/
def hello (m : Msg) (s : State) : Work :=
  (s.send (.hbx m.src kindAnnounce (s.tagOf m.src.mac) 0 0 s.announceBody), [])

/-! ## Pairing -/

/-- The roles of a PAIR-ASK are out of range (R12). -/
def badRoles (roles : Nat) : Bool := roles = 0 || 7 < roles

/-- A PAIR-ASK is judged (R12). -/
def pairAsk (m : Msg) (s : State) : Work :=
  if s.link.window.isNone then s.refuse m stWindowClosed
  else if (s.peerOf m.src.mac).isSome then s.refuse m stDuplicate
  else if badRoles (byteAt m.body 0) then s.refuse m stBadRange
  else if Config.askPlaces ≤ s.link.asks.length then s.refuse m stBusy
  else
    let a : Ask := { mac := m.src.mac, roles := m.body.getD 0 0, quota := field m.body 1 4, label := (m.body.drop 5).take 32, asked := s.now }
    ({ s with link.asks := s.link.asks ++ [a] }.reply m stOk [], [])

/-- The value after a tag, skipping 0 and tags in use; at most 24 tags are in use, so the search ends (R14). -/
def nextTag (used : List Nat) : Nat → Nat → Nat
  | 0, c => c
  | n + 1, c =>
    let d := (c + 1) % 2 ^ 32
    if d = 0 || used.contains d then nextTag used n d else d

/-- The tags of the ENROLLED entries. -/
def State.tags (s : State) : List Nat := s.link.peers.toList.filterMap fun p => p.map (·.tag)

/-- The tag an enrolment takes: the counter's value, or the next not in use where the reloaded value is in use (R14, assumption
log 16). -/
def State.takeTag (s : State) : Nat :=
  if s.tags.contains s.link.tagCounter then nextTag s.tags 30 s.link.tagCounter else s.link.tagCounter

/-- The quota granted to an ask (R14). -/
def State.grantedQuota (s : State) (a : Ask) : Nat :=
  if hasRole a.roles roleContributor then min a.quota s.loader.image.quotaCap else 0

/-- The enrolment of an ask in a slot: the entry, the tag counter, and what is left to do (R14). -/
def State.enrol (s : State) (m : Msg) (a : Ask) (n : Nat) : Work :=
  let tag := s.takeTag
  let p : Peer := { mac := a.mac, last := some (m.src.ip, m.src.port), tag := tag, roles := a.roles, quota := s.grantedQuota a,
                    charged := 0, lastRun := none, lastCounted := none }
  let s := s.setPeer n (some p)
  let s := { s with link.tagCounter := nextTag s.tags 30 tag }
  (s, [.append (.peerEnrolled n a.mac tag a.roles p.quota), .append (.counters 0 0 0),
       .send (s.replyTo m stOk (be 1 n ++ be 4 tag ++ [a.roles] ++ be 4 p.quota))])

/-- A PAIR-CONFIRM is judged; the ask is discarded in every case (R14). -/
def pairConfirm (m : Msg) (s : State) : Work :=
  match s.link.asks.find? fun a => a.mac = m.src.mac with
  | none => s.refuse m stNoSuch
  | some a =>
    let s := { s with link.asks := s.link.asks.filter fun b => b.mac ≠ m.src.mac }
    match s.link.peers.toList.findIdx? (·.isNone) with
    | none => s.refuse m stFull
    | some n => s.enrol m a n

/-- The peer still owns an object, a run, an album or a stream slot (R15). -/
def State.ownsAnything (s : State) (n : Nat) : Bool :=
  s.tables.objs.any (fun o => o.owner = n) || s.ingest.runs.any (fun r => r.owner = n) ||
    s.tables.albums.toList.any (fun a => a.any fun b => b.owner = n) || s.slots.toList.any fun x => x.owner = some n

/-- The peer slot leaves every chunk entry that names it as payer (R15, R34). -/
def State.unpay (s : State) (n : Nat) : State :=
  { s with index := s.index.map fun e => if e.payer = some n then { e with payer := none } else e }

/-- An UNPAIR is judged (R15). -/
def unpair (m : Msg) (s : State) : Work :=
  let n := s.sender m
  if s.ownsAnything n then s.refuse m stBusy
  else
    let tag := ((s.peer n).map (·.tag)).getD 0
    let s := (s.unpay n).setPeer n none
    (s, [.append (.peerRemoved n tag), .send (s.replyTo m stOk (be 4 tag))])

/-- The pairing button's press (R11). -/
def State.pressPairing (s : State) : State :=
  if s.power.state = .starting || s.power.state = .deep then s
  else { s with link.window := some (s.now + s.loader.image.pairingWindow * 1000) }

/-- The pairing window closes, and every pending ask is discarded (R11, R13). -/
def State.closeWindow (s : State) : State := { s with link.window := none, link.asks := [] }

/-- The pairing window's expiry (R11). -/
def State.windowExpiry (s : State) : State := if s.due s.link.window then s.closeWindow else s

/-- A pending ask's 10 s pass (R13). -/
def State.askExpiry (s : State) (mac : Mac) : State :=
  { s with link.asks := s.link.asks.filter fun a => !(a.mac = mac && a.asked + Config.askLife ≤ s.now) }

/-! ## QUERY -/

/-- The bay and the condition of a member index, 0xFF where there is none (R20, section 1.8). -/
def State.memberReport (s : State) (m : Nat) : List Byte :=
  [byteOf (((s.bayOf m).map (·.val)).getD 0xFF), byteOf (((s.condOf m).map MemberCond.code).getD 0xFF)]

/-- The sender's own entry in a QUERY report (R20); a last closed run that is absent shows id 0 (DESIGN CHOICE, assumption
log 18). -/
def State.ownReport (s : State) (m : Msg) : List Byte :=
  match if s.unconsulted then none else s.peerOf m.src.mac with
  | none => List.replicate 14 0
  | some n =>
    match s.peer n with
    | none => List.replicate 14 0
    | some p => [1, byteOf n, p.roles] ++ be 4 p.quota ++ be 4 p.charged ++ [byteOf (bit p.lastRun.isSome)] ++ be 2 (p.lastRun.getD 0)

/-- One pending ask in a QUERY report (R20). -/
def State.askReport (s : State) (a : Ask) : List Byte :=
  be 6 a.mac.toNat ++ [a.roles] ++ padTo 32 a.label ++ be 1 ((a.asked + Config.askLife - s.now) / 1000)

/-- The report of a QUERY (R20, section 1.8), the pending asks in the order of asking (DESIGN CHOICE, assumption log 38). -/
def State.queryReport (s : State) (m : Msg) : List Byte :=
  [byteOf s.power.state.code, byteOf s.condCode, byteOf s.boxFlags] ++
    ((List.range 4).flatMap s.memberReport) ++ (bayNos.map fun b => byteOf s.bays[b].code) ++
    be 2 s.loader.image.stagingPages ++ be 2 s.freePages ++ be 2 s.loader.image.cachePages ++ be 2 s.freeCachePages ++
    be 4 s.index.length ++ be 4 s.loader.image.indexCapacity ++ be 4 s.tables.objs.length ++
    be 4 s.loader.image.objectCapacity ++ be 4 s.store.stripeCount ++ be 4 s.freeStripes ++
    be 4 (s.store.pointer.getD 0xFFFFFFFF) ++ be 1 s.ingest.runs.length ++ be 1 s.idleSlots ++ s.ownReport m ++
    be 1 s.link.asks.length ++ s.link.asks.flatMap s.askReport

/-- A QUERY is answered (R20). -/
def query (m : Msg) (s : State) : Work := (s.reply m stOk (s.queryReport m), [])

/-! ## Frames out -/

/-- The frame of a message goes to the transmitter; an IPv4 frame takes the next identification (R9, R17). -/
def State.transmit (s : State) (m : OutMsg) : State :=
  { s with
    link.tx := some (m.frame s.loader.image s.link.ipId)
    link.ipId := if m.isIp then (s.link.ipId + 1) % 65536 else s.link.ipId }

/-- The slots in round-robin order after the one last served (R17). -/
def slotsAfter (last : SlotNo) : List SlotNo := (List.range 8).map fun k => Fin.ofNat 8 (last.val + 1 + k)

/-- The transmit arbiter takes one message (R17). -/
def State.arbitrate (s : State) : State :=
  match s.link.control with
  | m :: rest => { s with link.control := rest }.transmit m
  | [] =>
    match (slotsAfter s.link.lastSlot).find? fun i => !s.slots[i].sendQueue.isEmpty with
    | none => s
    | some i =>
      match s.slots[i].sendQueue with
      | [] => s
      | m :: rest => ({ s.updSlot i (fun x => { x with sendQueue := rest }) with link.lastSlot := i }).transmit m

/-- The announce timer's expiry (R18). -/
def State.announceExpiry (s : State) : State :=
  if s.due s.link.announce then
    { s.announce with link.announce := some (s.now + Config.announcePeriod) }
  else s

/-- An HBX message of no kind of the table changes nothing but what R6, R7 and R13 give. -/
def unknownKind (_ : Msg) (s : State) : Work := s.idle

end Sys2Proof.Machine
end

