-- ==== Sys2Proof/Machine/Ingest.lean ====
section
/-! DEFINITION. Machine/Ingest.lean: the Ingest Unit and the Check Lanes (Chapter 4). -/

namespace Sys2Proof.Machine

/-! ## Runs -/

/-- A run id is in use (R57). -/
def State.runIdUsed (s : State) (n : Nat) : Bool :=
  s.ingest.runs.any (fun r => r.id = n) || s.link.peers.toList.any (fun p => p.any fun q => q.lastRun = some n) ||
    s.ingest.arrivals.toList.any (fun a => a.use.any fun u => u.run = n) ||
    s.tables.objs.any fun o => o.state = .complete && o.pending && o.run = some n

/-- The value after a run id, skipping 0 and ids in use; the search ends after one lap (R57). -/
def State.nextRunId (s : State) : Nat → Nat → Nat
  | 0, c => c
  | n + 1, c =>
    let d := if 65535 ≤ c then 1 else c + 1
    if s.runIdUsed d then s.nextRunId n d else d

/-- The id a new run takes: the counter's value, or the next not in use where the reloaded value is in use (R57, assumption
log 16). -/
def State.takeRunId (s : State) : Nat :=
  if s.runIdUsed s.ingest.counter then s.nextRunId 65535 s.ingest.counter else s.ingest.counter

/-- Every run id is in use (R58). -/
def State.runIdsSpent (s : State) : Bool := (List.range 65535).all fun n => s.runIdUsed (n + 1)

/-- A new OPEN run (R58). -/
def newRun (id owner now : Nat) : Run where
  id := id
  owner := owner
  closing := false
  objects := []
  inFlight := 0
  pendingObjs := 0
  mark := none
  heard := now
  reply := none
  reclaimed := false

/-- A RUN-OPEN is judged (R58). -/
def runOpen (m : Msg) (s : State) : Work :=
  let owner := s.sender m
  if Config.runPlaces ≤ s.ingest.runs.length || Config.runsPerPeer ≤ s.ingest.runs.countP (fun r => r.owner = owner) || s.runIdsSpent
  then s.refuse m stBusy
  else
    let id := s.takeRunId
    let s := { s with ingest.runs := s.ingest.runs ++ [newRun id owner s.now] }
    let s := { s with ingest.counter := s.nextRunId 65535 id }
    (s.reply m stOk (be 2 id), [])

/-- The indexes of the arrival records. -/
def arrivalNos : List (Fin 32) := List.finRange 32

/-- Arrivals of a run still receiving segments, in index order (R60). -/
def State.receiving (s : State) (run : Nat) : List (Fin 32) :=
  arrivalNos.filter fun i => (s.arrival? i).any fun a => a.run = run && !a.checking

/-- A run ends (R60); its OPEN objects are discarded in the order of their OBJECT-BEGIN (DESIGN CHOICE, assumption log 38). -/
def endRun (run : Nat) (s : State) : Work :=
  match s.run? run with
  | none => s.idle
  | some r =>
    ({ s with ingest.runs := s.ingest.runs.filter fun q => q.id ≠ run },
     (s.receiving run).map (Task.abandonArrival · .runEnded) ++ r.objects.map Task.discardObject ++
       [.reclaim run, .lower (.durable run)])

/-- A RUN-ABORT is judged (R61). -/
def runAbort (m : Msg) (s : State) : Work :=
  let id := field m.body 0 2
  match s.run? id with
  | none => s.refuse m stNoSuch
  | some r =>
    if r.owner ≠ s.sender m then s.refuse m stNotAllowed
    else (s, [.endRun id, .send (s.replyTo m stOk (be 1 (s.receiving id).length ++ be 1 r.objects.length))])

/-- The idle timeout of an OPEN run (R59). -/
def runIdleTimeout (id : Nat) (s : State) : Work :=
  match s.run? id with
  | none => s.idle
  | some r => if !r.closing && r.heard + Config.runIdle ≤ s.now then (s, [.endRun id]) else s.idle

/-- A RUN-CLOSE is judged (R62); the OPEN objects are discarded in the order of their OBJECT-BEGIN (DESIGN CHOICE, assumption
log 38). -/
def runClose (m : Msg) (s : State) : Work :=
  let id := field m.body 0 2
  match s.run? id with
  | none =>
    if ((s.peer (s.sender m)).bind (·.lastRun)) = some id then (s.reply m stOk (be 2 id), []) else s.refuse m stNoSuch
  | some r =>
    if r.owner ≠ s.sender m then s.refuse m stNotAllowed
    else
      let d : Deferred := { seq := m.seq, addr := m.src }
      if r.closing then (s.updRun id fun r => { r with reply := some d }, [])
      else
        (s.updRun id fun r => { r with closing := true, reply := some d, reclaimed := false, objects := [] },
         r.objects.map Task.discardObject ++ [.closeZero id])

/-- A CLOSING run's arrivals in flight are 0: reclaim, then what follows it (R63). -/
def closeZero (run : Nat) (s : State) : Work :=
  match s.run? run with
  | none => s.idle
  | some r =>
    if r.closing && !r.reclaimed && r.inFlight = 0 then
      (s.updRun run fun r => { r with reclaimed := true }, [.reclaim run, .closeAfterReclaim run])
    else s.idle

/-- After the reclaim: DISK_FAULT while the store is BROKEN (R66); else DURABLE is raised and the filling stripe and the
open block are closed (R63, R98, R181), also where the close completed while the reclaim was paused (R65, R89). -/
def closeAfterReclaim (run : Nat) (s : State) : Work :=
  match s.run? run with
  | none => (s, if s.broken then [] else [.closeStripe, .closeBlock])
  | some _ =>
    if s.broken then (s, [.completeRun run false])
    else (s, [.raise (.durable run), .closeStripe, .closeBlock, .judgeClose run])

/-- The block holding a position has been reported written (R64). -/
def State.posWritten (s : State) (p : Pos) : Bool := p.1 ≤ s.journal.written

/-- A CLOSING run may complete its close with OK: not while the store is BROKEN (R65, R66). -/
def State.closeReady (s : State) (r : Run) : Bool :=
  !s.broken && r.closing && r.reclaimed && r.pendingObjs = 0 && (r.mark.all fun p => s.posWritten p)

/-- A CLOSING run is judged (R65). -/
def judgeClose (run : Nat) (s : State) : Work :=
  match s.run? run with
  | none => s.idle
  | some r => if s.closeReady r then (s, [.completeRun run true]) else s.idle

/-- The deferred REPLY of a RUN-CLOSE (R8, R65, R66). -/
def State.closeReply (s : State) (r : Run) (status : Nat) : List OutMsg :=
  r.reply.toList.map fun d => .hbx d.addr kindReply (s.tagOf d.addr.mac) d.seq status (byteOf Kind.runClose.code :: be 2 r.id)

/-- A run completes its close, with OK (R65) or with DISK_FAULT (R66). -/
def completeRun (run : Nat) (ok : Bool) (s : State) : Work :=
  match s.run? run with
  | none => s.idle
  | some r =>
    let s := (s.closeReply r (if ok then stOk else stDiskFault)).foldl State.send s
    let s := { s with ingest.runs := s.ingest.runs.filter fun q => q.id ≠ run }
    (if ok then s.updPeer r.owner fun p => { p with lastRun := some run } else s, [.lower (.durable run)])

/-! ## Offers -/

/-- The lowest-numbered free arrival record (R69). -/
def State.freeArrivalNo (s : State) : Option (Fin 32) := arrivalNos.find? fun i => (s.arrival? i).isNone

/-- No arrival record is free, or fewer staging pages are FREE than the item needs (R68). -/
def State.noRoom (s : State) (i : OfferItem) : Bool := s.freeArrivalNo.isNone || s.freePages < pagesFor i.length

/-- The verdict of an OFFER item (R68). -/
def State.verdict (s : State) (owner : Nat) (i : OfferItem) : Nat :=
  if i.length = 0 || Config.maxChunk < i.length then stBadRange
  else if s.broken then stDiskFault
  else match s.entry? i.name with
    | some e =>
      match e.state with
      | .staged | .striping | .stored => stHave
      | .arriving | .checking => stInflight
      | .lost =>
        if e.length ≠ i.length || e.check ≠ i.check then stBadRange
        else if s.noRoom i then stWait else stSend
    | none =>
      if s.loader.image.indexCapacity ≤ s.index.length then stFull
      else if (s.peer owner).any fun p => p.quota ≤ p.charged then stQuota
      else if s.noRoom i then stWait else stSend

/-- An arrival record as an item given SEND takes it (R69). -/
def newArrival (i : OfferItem) (run owner tag now : Nat) : Arrival where
  name := i.name
  run := run
  owner := owner
  ownerTag := tag
  length := i.length
  segments := segmentsFor i.length
  got := []
  check := i.check
  last := now
  checking := false

/-- The effects of an item given SEND; the stripe of a re-ingested entry is to be judged (R69). -/
def State.sendItem (s : State) (run owner : Nat) (i : OfferItem) (k : Fin 32) : State × List Task :=
  let pages := s.pickPages (pagesFor i.length)
  let s := s.setPages pages .reserved
  let s := s.setArrival k { gen := s.ingest.arrivals[k].gen, use := some (newArrival i run owner (((s.peer owner).map (·.tag)).getD 0) s.now) }
  let old := s.entry? i.name
  let s := match old with
    | none => s.createEntry (newEntry i.name i.length i.check run owner pages)
    | some e => s.reingest e run pages
  (s.updRun run fun r => { r with inFlight := r.inFlight + 1 },
   match old.bind (·.loc) with
    | none => []
    | some l => [.judgeStripe l.1])

/-- Items judged one at a time in offer order: the state, the tasks, and the verdicts as the REPLY carries them (R67). -/
def State.offerAll (s : State) (run owner : Nat) : List OfferItem → State × List Task × List Byte
  | [] => (s, [], [])
  | i :: is =>
    let v := s.verdict owner i
    match if v = stSend then s.freeArrivalNo else none with
    | none =>
      let r := s.offerAll run owner is
      (r.1, r.2.1, byteOf v :: be 2 0 ++ r.2.2)
    | some k =>
      let n := s.arrivalNumber k
      let p := s.sendItem run owner i k
      let r := p.1.offerAll run owner is
      (r.1, p.2 ++ r.2.1, byteOf v :: be 2 n ++ r.2.2)

/-- An OFFER is judged (R67). -/
def offer (m : Msg) (s : State) : Work :=
  let id := field m.body 0 2
  match s.run? id with
  | none => s.refuse m stNoSuch
  | some r =>
    if r.owner ≠ s.sender m then s.refuse m stNotAllowed
    else if r.closing then s.refuse m stClosing
    else
      let items := offerItems m.body
      let (s', ts, data) := s.offerAll id r.owner items
      (s'.reply m stOk (be 1 items.length ++ data), ts)

/-! ## Arrivals -/

/-- The record in use that carries an arrival number (R70). -/
def State.arrivalOf (s : State) (number : Nat) : Option (Fin 32) :=
  arrivalNos.find? fun i => (s.arrival? i).isSome && s.arrivalNumber i = number

/-- The payload length a segment must have (R71). -/
def Arrival.segmentLength (a : Arrival) (i : Nat) : Nat :=
  if i + 1 = a.segments then a.length - Config.segmentBytes * (a.segments - 1) else Config.segmentBytes

/-- A CHUNK is accepted into this record (R71). -/
def Arrival.accepts (a : Arrival) (owner i length : Nat) : Bool :=
  a.owner = owner && !a.checking && i < a.segments && length = a.segmentLength i && !a.got.contains i

/-- A CHUNK is accepted or ignored (R71); the last missing segment completes the arrival (R72, R23). -/
def chunk (m : Msg) (s : State) : Work :=
  let i := field m.body 2 2
  let payload := m.body.drop 4
  match s.arrivalOf (field m.body 0 2) with
  | none => s.idle
  | some k =>
    match s.arrival? k with
    | none => s.idle
    | some a =>
      if a.accepts (s.sender m) i payload.length then
        let pages := ((s.entry? a.name).map (·.pages)).getD []
        let s := { s with buf.stagingMem := s.buf.stagingMem.putChunk pages (i * Config.segmentBytes) payload }
        let s := s.issue .linkFront payload.length
        let got := a.got ++ [i]
        let done := got.length = a.segments
        let s := s.setArrival k { gen := s.ingest.arrivals[k].gen, use := some { a with got := got, last := s.now, checking := done } }
        if done then
          let s := s.updEntry a.name fun e => { e with state := .checking }
          (s.queueIngestCheck (.ingest (s.arrivalNumber k) a.name a.length pages a.check), [])
        else s.idle
      else s.idle

/-- The 10 s of a RECEIVING arrival (R73). -/
def arrivalTimeout (k : Fin 32) (s : State) : Work :=
  match s.arrival? k with
  | none => s.idle
  | some a => if !a.checking && a.last + Config.arrivalIdle ≤ s.now then (s, [.abandonArrival k .timeout]) else s.idle

/-- The ARRIVAL-LOST of an abandoned arrival, if its owner is still enrolled with the tag kept (R9, R74). -/
def State.lostMessage (s : State) (k : Fin 32) (a : Arrival) (reason : LostReason) : List OutMsg :=
  match s.peer a.owner with
  | none => []
  | some p =>
    match p.last with
    | none => []
    | some (ip, port) =>
      if p.tag = a.ownerTag then
        [.hbx { mac := p.mac, ip := ip, port := port } kindArrivalLost p.tag 0 0
          (be 2 (s.arrivalNumber k) ++ be 1 reason.code ++ be 16 a.name.toNat)]
      else []

/-- An arrival is abandoned (R74). -/
def abandonArrival (k : Fin 32) (reason : LostReason) (s : State) : Work :=
  match s.arrival? k with
  | none => s.idle
  | some a => ((s.lostMessage k a reason).foldl State.send s, [.abandonEntry a.name, .freeArrival k])

/-- An arrival record is freed, its generation advances, and its run's count falls (R70, R74, R76). -/
def freeArrival (k : Fin 32) (s : State) : Work :=
  match s.arrival? k with
  | none => s.idle
  | some a =>
    let s := s.setArrival k { gen := (s.ingest.arrivals[k].gen + 1) % Config.generations, use := none }
    (s.updRun a.run fun r => { r with inFlight := r.inFlight - 1 }, [.closeZero a.run])

/-! ## Check Lanes -/

/-- The place an item left on the check queue is taken by the oldest waiting item of one of the two wait lists; where both
hold items either may take it (R72, R85). -/
def State.refillCheck (s : State) (verifyFirst : Bool) : State :=
  match s.ingest.checkWait, s.buf.verifyWait with
  | [], [] => s
  | i :: is, [] => { s with ingest.checkWait := is, ingest.queue := s.ingest.queue ++ [i] }
  | [], v :: vs => { s with buf.verifyWait := vs, ingest.queue := s.ingest.queue ++ [v] }
  | i :: is, v :: vs =>
    if verifyFirst then { s with buf.verifyWait := vs, ingest.queue := s.ingest.queue ++ [v] }
    else { s with ingest.checkWait := is, ingest.queue := s.ingest.queue ++ [i] }

/-- Bytes an item's check reads. -/
def CheckItem.length : CheckItem → Nat
  | .ingest _ _ n _ _ => n
  | .verify _ _ n _ _ => n

/-- The requester of a lane (R90). -/
def laneRequester (l : Fin 2) : Requester := if l = 0 then .lane0 else .lane1

/-- An idle lane takes the item at the head of the check queue (R75). In DEEP the engines are stopped (R168). -/
def State.laneTake (s : State) (l : Fin 2) (verifyFirst : Bool) : State :=
  if s.inDeep then s
  else match s.ingest.lanes[l], s.ingest.queue with
  | none, i :: is =>
    ({ s with ingest.lanes := s.ingest.lanes.set l (some i), ingest.queue := is }.refillCheck verifyFirst).issue
      (laneRequester l) i.length
  | _, _ => s

/-- The lane becomes idle. -/
def State.laneIdle (s : State) (l : Fin 2) : State := { s with ingest.lanes := s.ingest.lanes.set l none }

/-- A lane reports an ingest item's result, which the pages' bytes give (R38, R76). In DEEP the engines are stopped (R168). -/
def checkResultIngest (l : Fin 2) (s : State) : Work :=
  if s.inDeep then s.idle
  else match s.ingest.lanes[l] with
  | some (.ingest number name length pages check) =>
    let s := s.laneIdle l
    match s.arrivalOf number with
    | none => s.idle
    | some k =>
      if bodyCheck (s.buf.stagingMem.chunkBytes pages 0 length) = check then (s, [.checked name, .freeArrival k])
      else (s, [.abandonArrival k .badBody])
  | _ => s.idle

end Sys2Proof.Machine
end

