-- ==== Sys2Proof/Machine/Buffers.lean ====
section
/-! DEFINITION. Machine/Buffers.lean: the Buffer Manager's pools: staging pages and holds, parity sets, the high-water
demand, read-cache copies and fills, and the DRAM port (sections 5.1 to 5.5). -/

namespace Sys2Proof.Machine

/-! ## Staging pages -/

/-- A read hold is on a page list (R79). -/
def State.isHeld (s : State) (pages : List Nat) : Bool := s.buf.holds.any fun h => h.1 = pages

/-- A read hold is placed on a page list (R79). -/
def State.placeHold (s : State) (pages : List Nat) : State :=
  if s.isHeld pages then
    { s with buf.holds := s.buf.holds.map fun h => if h.1 = pages then (h.1, h.2 + 1) else h }
  else { s with buf.holds := s.buf.holds ++ [(pages, 1)] }

/-- The holds on a page list, one fewer. -/
def fewerHolds (pages : List Nat) (holds : List (List Nat × Nat)) : List (List Nat × Nat) :=
  (holds.map fun h => if h.1 = pages then (h.1, h.2 - 1) else h).filter fun h => 0 < h.2

/-- Pages are due to become FREE, subject to read holds (R77, R79). -/
def pagesDue (pages : List Nat) (s : State) : Work :=
  if s.isHeld pages then ({ s with buf.detached := s.buf.detached ++ [pages] }, [])
  else (s.freeUp pages, [.pagesFreed])

/-- A read hold is released; the last one frees a detached page list (R79). -/
def releaseHold (pages : List Nat) (s : State) : Work :=
  let s := { s with buf.holds := fewerHolds pages s.buf.holds }
  if !s.isHeld pages && s.buf.detached.contains pages then
    ({ s with buf.detached := s.buf.detached.erase pages }.freeUp pages, [.pagesFreed])
  else s.idle

/-- The sum staged plus parity pages is at or above the high water (R81). -/
def State.overHighWater (s : State) : Bool :=
  s.loader.image.stagingPages * s.loader.image.highWater ≤ (s.pagesIn .staged + s.pagesIn .parity) * 100

/-- The staging high-water demand is raised or released (R81). -/
def stagingDemand (s : State) : Work :=
  (s, if s.overHighWater then [.raise .stagingHigh] else [.lower .stagingHigh])

/-! ## Parity sets -/

/-- A stripe gets its parity set, and its parity job joins the parity list (R78, R99). -/
def State.assignParity (s : State) (stripe : Nat) (pages : List Nat) : State :=
  let s := (s.setPages pages .parity).updStripe stripe fun r => { r with parity := some pages }
  { s with store.parityList := s.store.parityList ++ [stripe] }

/-- A closed stripe asks for a parity set (R78). -/
def askParity (stripe : Nat) (s : State) : Work :=
  match s.buf.reserve with
  | some set => ({ s with buf.reserve := none }.assignParity stripe set, [])
  | none =>
    if Config.parityPages ≤ s.freePages then (s.assignParity stripe (s.pickPages Config.parityPages), [.stagingDemand])
    else ({ s with buf.parityWait := s.buf.parityWait ++ [stripe] }, [])

/-- A parity set is released (R78). -/
def releaseParity (pages : List Nat) (s : State) : Work :=
  match s.buf.parityWait with
  | stripe :: rest => ({ s with buf.parityWait := rest }.assignParity stripe pages, [])
  | [] =>
    if s.buf.reserve.isNone then ({ s with buf.reserve := some pages }, [])
    else (s.freeUp pages, [.pagesFreed])

/-- Staging pages have become FREE: waiting parity requests are served, and the high water is judged (R78, R81). Of the two
orders that R78 allows, the request is served before any OFFER item is judged (DESIGN CHOICE, assumption log 42). -/
def pagesFreed (s : State) : Work :=
  match s.buf.parityWait with
  | [] => (s, [.stagingDemand])
  | stripe :: rest =>
    if Config.parityPages ≤ s.freePages then
      ({ s with buf.parityWait := rest }.assignParity stripe (s.pickPages Config.parityPages), [.pagesFreed])
    else (s, [.stagingDemand])

/-- The parity reserve is taken, unless the store is ABSENT (R78). -/
def takeReserve (s : State) : Work :=
  if s.absent || s.buf.reserve.isSome || s.freePages < Config.parityPages then s.idle
  else
    let set := s.pickPages Config.parityPages
    ({ s.setPages set .parity with buf.reserve := some set }, [.stagingDemand])

/-- The reserve's pages become FREE on entry to DEEP (R78). -/
def State.giveUpReserve (s : State) : State :=
  match s.buf.reserve with
  | none => s
  | some set => { s.freeUp set with buf.reserve := none }

/-! ## Window positions the read cache answers -/

/-- Change the window position of a slot at a chunk list place. -/
def State.updPos (s : State) (i : SlotNo) (place : Nat) (f : WinPos → WinPos) : State :=
  s.updSlot i fun x => { x with window := x.window.map fun w => if w.place = place then f w else w }

/-- Change every window position of every slot. -/
def State.mapWindows (s : State) (f : WinPos → WinPos) : State :=
  { s with slots := s.slots.map fun x => { x with window := x.window.map f } }

/-- A slot pinning the copy is told ready (R85). -/
def WinPos.toldReady (copy : Nat) (w : WinPos) : WinPos :=
  if w.state = .copyWait copy then { w with state := .cached copy } else w

/-- A waiting position registered against a name is told lost; a ready one stays ready (R27, R130). -/
def WinPos.toldLost (name : Name) (w : WinPos) : WinPos :=
  if w.name = name then
    match w.state with
    | .copyWait c => { w with state := .lost (some c) }
    | .fillWait | .entryWait => { w with state := .lost none }
    | _ => w
  else w

/-- The window positions of a name are told lost (R27); a fill that waits for one of them keeps its place in the fill wait
list until the window lets the chunk go (R84, R131, assumption log 13). -/
def State.tellLost (s : State) (name : Name) : State := s.mapWindows (WinPos.toldLost name)

/-- A position's fill request is served by a copy: the position holds the copy's pin, and is ready at once where the copy is
READY; a position told lost meanwhile stays lost (R83, R84, assumption log 13). -/
def PosState.served (p : PosState) (copy : Nat) (ready : Bool) : PosState :=
  match p with
  | .lost _ => .lost (some copy)
  | _ => if ready then .cached copy else .copyWait copy

/-! ## The read cache -/

/-- A copy is eligible for eviction (R82). -/
def Copy.eligible (c : Copy) : Bool := c.stage = .ready && c.pins = 0 && !c.drop

/-- Evict eligible copies from the least-recently-used end until `need` pages are FREE (R83). -/
def State.evict (s : State) (need : Nat) : Nat → State
  | 0 => s
  | n + 1 =>
    if need ≤ s.freeCachePages then s
    else match s.buf.copies.find? Copy.eligible with
      | none => s
      | some c => ({ s with buf.copies := s.buf.copies.filter fun d => d.id ≠ c.id }.setCached c.name false).evict need n

/-- A new copy in stage FILLING, pinned once; its read counts in the stripe's busy count (R83, R107). -/
def State.makeCopy (s : State) (r : FillReq) : State :=
  let pages := lowestFree s.loader.image.cachePages (pagesFor r.length) s.cachePagesUsed
  let c : Copy := { id := s.buf.nextCopy, name := r.name, length := r.length, check := ((s.entry? r.name).map (·.check)).getD 0,
                    pages := pages, loc := r.loc, stage := .filling, pins := 1, drop := false, rebuilt := false, work := true }
  { (s.updPos r.slot r.place (fun w => { w with state := w.state.served c.id false })).updStripe r.loc.1
      (fun x => { x with busy := x.busy + 1 }) with
    buf.copies := s.buf.copies ++ [c], buf.nextCopy := s.buf.nextCopy + 1 }

/-- What a new copy asks: the read, and a peer demand for the slot's owner while the box is not AWAKE (R83, R130). -/
def State.readTasks (s : State) (r : FillReq) : List Task :=
  .routeRead s.buf.nextCopy ::
    (if s.power.state = .awake then [] else (s.slots[r.slot].owner).toList.map Task.peerDemand)

/-- A fill request by steps 1 to 3 of R83; none when it cannot be served. -/
def State.tryFill (s : State) (r : FillReq) : Option Work :=
  match s.liveCopy? r.name with
  | some c =>
    let s := (s.updCopy c.id fun c => { c with pins := c.pins + 1 }).touchCopy c.id
    some (s.updPos r.slot r.place fun w => { w with state := w.state.served c.id (c.stage = .ready) }, [])
  | none =>
    let need := pagesFor r.length
    let spare := ((s.buf.copies.filter Copy.eligible).map fun c => c.pages.length).sum
    if need ≤ s.freeCachePages + spare then
      let s := s.evict need s.buf.copies.length
      some (s.makeCopy r, s.readTasks r)
    else none

/-- A fill request is settled by the steps of R83, also while older requests wait (DESIGN CHOICE, assumption log 39). -/
def requestFill (r : FillReq) (s : State) : Work :=
  match s.tryFill r with
  | some w => w
  | none => ({ s.updPos r.slot r.place (fun w => { w with state := .fillWait }) with buf.fillWait := s.buf.fillWait ++ [r] }, [])

/-- The oldest waiting fill request is tried again, and the next when it is served (R84). -/
def retryFills (s : State) : Work :=
  match s.buf.fillWait with
  | [] => s.idle
  | r :: rest =>
    match ({ s with buf.fillWait := rest } : State).tryFill r with
    | some (s', ts) => (s', ts ++ [.endWork, .retryFills])
    | none => s.idle

/-- A pin is released; a copy whose pin count reaches 0 is handled by its stage (R86). -/
def unpin (id : Nat) (s : State) : Work :=
  match s.copy? id with
  | none => s.idle
  | some c =>
    let s := s.updCopy id fun c => { c with pins := c.pins - 1 }
    if c.pins - 1 ≠ 0 then s.idle
    else if c.drop then (s, [.withdrawRead id, .reapCopy id])
    else match c.stage with
      | .ready => (s, [.retryFills])
      | .filling => (s, [.withdrawRead id])
      | _ => s.idle

/-- A copy is dropped: removed at once when unpinned with no work in flight, else marked (R87). -/
def dropCopy (id : Nat) (s : State) : Work :=
  match s.copy? id with
  | none => s.idle
  | some c =>
    let s := if c.drop then s else s.setCached c.name false
    (s.updCopy id fun c => { c with drop := true }, [.reapCopy id])

/-- A copy with drop mark, no pin and no work in flight is removed, and its pages are offered to waiting fills (R87). -/
def reapCopy (id : Nat) (s : State) : Work :=
  match s.copy? id with
  | none => s.idle
  | some c =>
    if c.drop && c.pins = 0 && !c.work then
      ({ s with buf.copies := s.buf.copies.filter fun d => d.id ≠ id }, [.retryFills])
    else s.idle

/-- The read-verify item of a copy (R85). -/
def Copy.item (c : Copy) : CheckItem := .verify c.id c.name c.length c.pages c.check

/-- A read or a repair has landed in the copy's pages (R85, R110). -/
def landed (id : Nat) (s : State) : Work :=
  match s.copy? id with
  | none => s.idle
  | some c =>
    match c.stage with
    | .filling =>
      if c.drop then (s.updCopy id fun c => { c with work := false }, [.reapCopy id])
      else ((s.updCopy id fun c => { c with stage := .checking }).queueVerifyCheck c.item, [])
    | _ => (s.queueVerifyCheck c.item, [])

/-- A read is impossible: the copy is dropped (R85). -/
def readFailed (id : Nat) (s : State) : Work := (s.updCopy id fun c => { c with work := false }, [.dropCopy id])

/-- A copy has checked good: it is READY and verified at the most-recently-used end, the slots that pin it are told, and one
whose entry the Content Index does not find STORED is then dropped (R85, R35). The work on a repaired copy lasts until its
rewrite, if one is queued, ends (R110). -/
def verified (id : Nat) (s : State) : Work :=
  match s.copy? id with
  | none => s.idle
  | some c =>
    let s := s.updCopy id fun c => { c with work := c.work && c.stage = .repairing }
    if c.drop then (s, [.reapCopy id])
    else
      let s := (s.updCopy id fun c => { c with stage := .ready }).touchCopy id
      if (s.entry? c.name).any fun e => e.state = .stored then
        ((s.setCached c.name true).mapWindows (WinPos.toldReady id), if c.pins = 0 then [.retryFills] else [])
      else (s, [.dropCopy id])

/-- A lane reports a read-verify item's result, which the pages' bytes give (R38, R85). In DEEP the engines are stopped (R168). -/
def checkResultVerify (l : Fin 2) (s : State) : Work :=
  if s.inDeep then s.idle
  else match s.ingest.lanes[l] with
  | some (.verify id _ length pages check) =>
    let s := { s with ingest.lanes := s.ingest.lanes.set l none }
    let good := bodyCheck (s.buf.cacheMem.chunkBytes pages 0 length) = check
    match s.copy? id with
    | none => s.idle
    | some c =>
      if c.stage = .repairing then (s, if good then [.repaired id, .verified id] else [.repairFailed id])
      else if good || c.drop then (s, [.verified id])
      else (s.updCopy id fun c => { c with stage := .repairing }, [.repair id])
  | _ => s.idle

/-! ## The DRAM port -/

/-- One turn of at most 4 KiB of the first transfer of a requester (R90). -/
def moveTurn (r : Requester) : List (Requester × Nat) → List (Requester × Nat)
  | [] => []
  | x :: xs => if x.1 = r then (if x.2 ≤ 4096 then xs else (x.1, x.2 - 4096) :: xs) else x :: moveTurn r xs

/-- The turn of a requester leaves its transfer unfinished (R90). -/
def Port.unfinished (p : Port) (r : Requester) : Bool := (p.waiting.find? fun x => x.1 = r).any fun x => 4096 < x.2

/-- A turn of the DRAM port ends and the next requester in turn is served; in DEEP the transfer being served is finished,
turn by turn, and no other is granted (R90, R175). -/
def State.dramTurn (s : State) : State :=
  match s.buf.port.turn with
  | none => s.grantTurn
  | some r =>
    let goesOn : Bool := s.power.state = .deep && s.buf.port.unfinished r
    State.grantTurn { s with buf.port := {
      waiting := moveTurn r s.buf.port.waiting, turn := if goesOn then some r else none, last := r } }

end Sys2Proof.Machine
end

