-- ==== Sys2Proof/Machine/Objects.lean ====
section
/-! DEFINITION. Machine/Objects.lean: the Object Table and the Album Table (Chapter 3). -/

namespace Sys2Proof.Machine

/-! ## Reading objects -/

/-- Places taken in the list region (section 3.1). -/
def State.regionUsed (s : State) : Nat := (s.tables.objs.map fun o => o.names.length).sum

/-- The length the Content Index holds for a name. -/
def State.chunkLength (s : State) (n : Name) : Nat := ((s.entry? n).map (·.length)).getD 0

/-- The chunk list place whose bytes contain an object offset, and the offset of the place's first byte (R46). -/
def State.placeAt (s : State) (off : Nat) : Nat → Nat → List Name → Option (Nat × Nat)
  | _, _, [] => none
  | i, start, n :: ns =>
    if off < start + s.chunkLength n then some (i, start) else s.placeAt off (i + 1) (start + s.chunkLength n) ns

/-! ## Building -/

/-- The value after an object id: from 4,294,967,295 to 1, skipping ids in use; the search is bounded by the records in
use (R40). -/
def nextObjectId (used : List Nat) : Nat → Nat → Nat
  | 0, c => c
  | n + 1, c =>
    let d := if c = 4294967295 then 1 else c + 1
    if used.contains d then nextObjectId used n d else d

/-- The id a new object takes: the counter's value, or the next not in use where the reloaded value is in use (R40, assumption
log 16). -/
def State.takeObjectId (s : State) : Nat :=
  let used := s.tables.objs.map fun o : Obj => o.id
  if used.contains s.tables.counter then nextObjectId used (s.tables.objs.length + 1) s.tables.counter else s.tables.counter

/-- A new OPEN object (R41). -/
def newObject (id owner run : Nat) (caption : List Byte) : Obj where
  id := id
  owner := owner
  state := .opened
  run := some run
  caption := caption
  names := []
  total := 0
  albumCount := 0
  playCount := 0
  pending := false
  recorded := false

/-- An OBJECT-BEGIN is judged (R41). -/
def objectBegin (m : Msg) (s : State) : Work :=
  let owner := s.sender m
  match s.run? (field m.body 0 2) with
  | none => s.refuse m stNoSuch
  | some r =>
    if r.owner ≠ owner then s.refuse m stNotAllowed
    else if r.closing then s.refuse m stClosing
    else if Config.openPerRun ≤ r.objects.length then s.refuse m stBusy
    else if s.loader.image.objectCapacity ≤ s.tables.objs.length then s.refuse m stFull
    else
      let id := s.takeObjectId
      let o := newObject id owner r.id ((m.body.drop 3).take (byteAt m.body 2))
      let s := { s with tables.objs := s.tables.objs ++ [o] }
      let s := { s with tables.counter := nextObjectId (s.tables.objs.map fun o : Obj => o.id) (s.tables.objs.length + 1) id }
      let s := s.updRun r.id fun r => { r with objects := r.objects ++ [id] }
      (s.reply m stOk (be 4 id), [])

/-- The status that stops an OBJECT-APPEND at a name, if any (R42). -/
def State.appendStop (s : State) (o : Obj) (name : Name) : Option Nat :=
  if Config.listNames ≤ o.names.length then some stBadRange
  else if Config.regionNames ≤ s.regionUsed then some stFull
  else match s.incrementAnswer name with
    | .missing => some stMissing
    | .refLimit => some stRefLimit
    | .ok => none

/-- One name is counted and appended (R29, R42). -/
def State.takeName (s : State) (id : Nat) (name : Name) : State :=
  (s.updEntry name Entry.counted).updObj id fun o =>
    { o with names := o.names ++ [name], total := o.total + s.chunkLength name }

/-- Names taken one at a time: the state, how many were taken, and the stopping status (R42). -/
def State.takeNames (s : State) (id : Nat) (k : Nat) : List Name → State × Nat × Nat
  | [] => (s, k, stOk)
  | n :: ns =>
    match s.obj? id with
    | none => (s, k, stNoSuch)
    | some o =>
      match s.appendStop o n with
      | some st => (s, k, st)
      | none => (s.takeName id n).takeNames id (k + 1) ns

/-- A STAGED entry that had refcount 0 before a request has been counted, so the staged list is walked (R97), once for all names
of the request (DESIGN CHOICE, assumption log 42). -/
def State.risen (before after : State) : Bool :=
  before.index.any fun e => e.state = .staged && e.refcount = 0 && (after.entry? e.name).any fun d => 0 < d.refcount

/-- An OBJECT-APPEND is judged (R42). -/
def objectAppend (m : Msg) (s : State) : Work :=
  let id := field m.body 0 4
  match s.obj? id with
  | none => s.refuse m stNoSuch
  | some o =>
    if o.owner ≠ s.sender m then s.refuse m stNotAllowed
    else match o.state with
      | .complete => s.refuse m stNotAllowed
      | .retired => s.refuse m stRetired
      | .opened =>
        let (s', k, st) := s.takeNames id 0 (appendNames m.body)
        let n := ((s'.obj? id).map fun o => o.names.length).getD 0
        (s'.reply m st (be 1 k ++ be 2 n), if s.risen s' then [.walk] else [])

/-- An entry is settled: STORED, LOST, or holding a prior state (R43). -/
def State.settled (s : State) (name : Name) : Bool :=
  (s.entry? name).any fun e => e.state = .stored || e.state = .lost || e.prior.isSome

/-- The REPLY data of an OBJECT-FINISH (R43). -/
def finishData (o : Obj) : List Byte := be 2 o.names.length ++ be 8 o.total ++ [byteOf (bit o.pending)]

/-- An OPEN object becomes COMPLETE: it leaves its run's OPEN objects (R43). -/
def State.complete (s : State) (o : Obj) : State :=
  let s := match o.run with
    | none => s
    | some r => s.updRun r fun r => { r with objects := r.objects.filter fun i => i ≠ o.id }
  s.updObj o.id fun o => { o with state := .complete }

/-- The run is removed from the record of a completed object with every entry settled (R43). -/
def State.leaveRun (s : State) (id : Nat) : State := s.updObj id fun o => { o with run := none }

/-- The completed object waits for its unsettled entries (R43, R64). -/
def State.makePending (s : State) (o : Obj) : State :=
  let s := match o.run with
    | none => s
    | some r => s.updRun r fun r => { r with pendingObjs := r.pendingObjs + 1 }
  s.updObj o.id fun o => { o with pending := true }

/-- An OBJECT-FINISH is judged (R43); with every entry settled its REPLY is queued before its records are appended (DESIGN
CHOICE, assumption log 42). -/
def objectFinish (m : Msg) (s : State) : Work :=
  let id := field m.body 0 4
  match s.obj? id with
  | none => s.refuse m stNoSuch
  | some o =>
    if o.owner ≠ s.sender m then s.refuse m stNotAllowed
    else match o.state with
      | .retired => s.refuse m stRetired
      | .complete => (s.reply m stOk (finishData o), [])
      | .opened =>
        if o.names.isEmpty then s.refuse m stBadRange
        else if o.names.all s.settled then
          (((s.complete o).leaveRun id).reply m stOk (finishData o), [.objectRecords id o.run])
        else
          let s := (s.complete o).makePending o
          (s.reply m stOk (finishData { o with pending := true }), [])

/-- The records of an object that completed in a run are given to the Journal Unit, a COUNTERS record last (R44). -/
def objectRecords (id : Nat) (run : Option Nat) (s : State) : Work :=
  match s.obj? id with
  | none => s.idle
  | some o =>
    (s, (objectParts o.id o.owner o.caption o.names.length o.names).map Task.append ++ [.append (.counters 0 0 0), .objectRecorded id run])

/-- The object's records have been appended: its marks, and the count and the durability mark of the run in which it
completed (R44, R64). -/
def objectRecorded (id : Nat) (run : Option Nat) (s : State) : Work :=
  match s.obj? id with
  | none => s.idle
  | some o =>
    let t := s.updObj id fun o => { o with recorded := true, pending := false, run := none }
    match run with
    | none => t.idle
    | some r =>
      (t.updRun r fun r => { r with
          mark := some s.journal.lastPos
          pendingObjs := if o.pending then r.pendingObjs - 1 else r.pendingObjs },
       [.judgeClose r])

/-- What the report of an entry that became STORED leaves to do, in the state after it: each journal-pending object whose
last unsettled entry this was is recorded (R44). An entry that held a prior state was settled before (R43), so its report
settles nothing. Several objects are recorded in the order of the Object Table (DESIGN CHOICE, assumption log 38). -/
def State.entrySettled (s : State) (e : Entry) : List Task :=
  if e.prior.isSome then []
  else (s.tables.objs.filter fun o => o.state = .complete && o.pending && o.names.contains e.name && o.names.all s.settled).map
    fun o => Task.objectRecords o.id o.run

/-! ## Deleting and retiring -/

/-- A run's OPEN object is discarded (R45). -/
def discardObject (id : Nat) (s : State) : Work :=
  match s.obj? id with
  | none => s.idle
  | some o => (s, o.names.map Task.decrement ++ [.dropObject id])

/-- The places of the list region are released and the record is freed (R45, R48). -/
def dropObject (id : Nat) (s : State) : Work :=
  ({ s with tables.objs := s.tables.objs.filter fun o => o.id ≠ id }, [])

/-- An object is removed (R48). -/
def removeObject (id : Nat) (s : State) : Work :=
  match s.obj? id with
  | none => s.idle
  | some o =>
    (s, (if o.recorded then [Task.append (.objectRemoved id)] else []) ++ o.names.map Task.decrement ++ [.dropObject id])

/-- A deleted object that was journal-pending is pending no longer (R44, R47, R64). -/
def State.unpend (s : State) (o : Obj) : State :=
  if o.pending then
    let s := s.updObj o.id fun o => { o with pending := false, run := none }
    match o.run with
    | none => s
    | some r => s.updRun r fun r => { r with pendingObjs := r.pendingObjs - 1 }
  else s

/-- An OBJECT-DELETE is judged (R47). A close that it completes is answered first, and its own REPLY comes last (DESIGN CHOICE,
assumption log 42). -/
def objectDelete (m : Msg) (s : State) : Work :=
  let id := field m.body 0 4
  match s.obj? id with
  | none => s.refuse m stNoSuch
  | some o =>
    if o.state = .opened then s.refuse m stNoSuch
    else if o.owner ≠ s.sender m then s.refuse m stNotAllowed
    else if o.state = .retired then s.refuse m stRetired
    else
      let close := if o.pending then o.run.toList.map Task.judgeClose else []
      let s := s.unpend o
      if o.albumCount + o.playCount = 0 then
        (s, close ++ [.removeObject id, .send (s.replyTo m stOk [0])])
      else
        let s := s.updObj id fun o => { o with state := .retired }
        (s, close ++ (if o.recorded then [.append (.objectRetired id)] else []) ++ [.send (s.replyTo m stOk [1])])

/-- A RETIRED object whose counts have fallen to zero is removed (R48). -/
def State.retireTasks (s : State) (id : Nat) : List Task :=
  match s.obj? id with
  | none => []
  | some o => if o.state = .retired && o.albumCount + o.playCount = 0 then [.removeObject id] else []

/-- A play claim is released (R49). -/
def releasePlay (id : Nat) (s : State) : Work :=
  let s := s.updObj id fun o => { o with playCount := o.playCount - 1 }
  (s, s.retireTasks id)

/-- An object's album count falls (R52, R53). -/
def albumFall (id : Nat) (s : State) : Work :=
  let s := s.updObj id fun o => { o with albumCount := o.albumCount - 1 }
  (s, s.retireTasks id)

/-- The answer to a play claim: a refusal, or none for OK (R49). -/
def State.claimRefusal (s : State) (id : Nat) : Option Nat :=
  match s.obj? id with
  | none => some stNoSuch
  | some o =>
    match o.state with
    | .opened => some stNotComplete
    | .retired => some stRetired
    | .complete => none

/-- A granted play claim (R49). -/
def State.claim (s : State) (id : Nat) : State := s.updObj id fun o => { o with playCount := o.playCount + 1 }

/-- The report of an object from a starting index of its chunk list on (R46, section 3.10). -/
def Obj.report (o : Obj) (start : Nat) : List Byte :=
  let names := (o.names.drop start).take 64
  [byteOf o.state.code, byteOf o.owner, byteOf (bit o.pending), byteOf o.albumCount, byteOf o.playCount] ++
    be 2 o.names.length ++ be 8 o.total ++ be 1 o.caption.length ++ padTo 64 o.caption ++ be 2 start ++
    be 1 names.length ++ nameBytes names

/-- An OBJECT-INFO is answered (R46). -/
def objectInfo (m : Msg) (s : State) : Work :=
  match s.obj? (field m.body 0 4) with
  | none => s.refuse m stNoSuch
  | some o => (s.reply m stOk (o.report (field m.body 4 2)), [])

/-! ## Albums -/

/-- An ALBUM-CREATE is judged (R50). -/
def albumCreate (m : Msg) (s : State) : Work :=
  match s.tables.albums.toList.findIdx? (·.isNone) with
  | none => s.refuse m stBusy
  | some a =>
    let owner := s.sender m
    let label := m.body.take 32
    let s := s.setAlbum a (some { owner := owner, label := label, entries := [] })
    (s, [.append (.albumMade a owner label), .send (s.replyTo m stOk (be 1 a))])

/-- The verdict of an ALBUM-ADD that refuses it, if any (R51). -/
def State.addRefusal (s : State) (a id : Nat) : Option Nat :=
  if 63 < a then some stBadRange
  else match s.album? a, s.obj? id with
    | none, _ => some stNoSuch
    | some _, none => some stNoSuch
    | some al, some o =>
      if o.state = .opened || (o.state = .complete && o.pending) then some stNotComplete
      else if o.state = .retired then some stRetired
      else if al.entries.contains id then some stDuplicate
      else if Config.albumEntries ≤ al.entries.length then some stFull
      else none

/-- An ALBUM-ADD is judged (R51). -/
def albumAdd (m : Msg) (s : State) : Work :=
  let a := byteAt m.body 0
  let id := field m.body 1 4
  match s.addRefusal a id, s.album? a with
  | some st, _ => s.refuse m st
  | none, none => s.refuse m stNoSuch
  | none, some al =>
    let p := min (field m.body 5 2) al.entries.length
    let entries := al.entries.take p ++ [id] ++ al.entries.drop p
    let s := (s.setAlbum a (some { al with entries := entries })).updObj id fun o => { o with albumCount := o.albumCount + 1 }
    (s, [.append (.albumEntryAdded a id p), .send (s.replyTo m stOk (be 2 p ++ be 2 entries.length))])

/-- An ALBUM-REMOVE is judged (R52). -/
def albumRemove (m : Msg) (s : State) : Work :=
  let a := byteAt m.body 0
  let id := field m.body 1 4
  if 63 < a then s.refuse m stBadRange
  else match s.album? a with
    | none => s.refuse m stNoSuch
    | some al =>
      match al.entries.findIdx? (· = id) with
      | none => s.refuse m stNoSuch
      | some p =>
        let entries := al.entries.eraseIdx p
        let s := s.setAlbum a (some { al with entries := entries })
        (s, [.append (.albumEntryRemoved a p), .albumFall id, .send (s.replyTo m stOk (be 2 p ++ be 2 entries.length))])

/-- An ALBUM-DROP is judged (R53). -/
def albumDrop (m : Msg) (s : State) : Work :=
  let a := byteAt m.body 0
  if 63 < a then s.refuse m stBadRange
  else match s.album? a with
    | none => s.refuse m stNoSuch
    | some al =>
      if al.owner ≠ s.sender m then s.refuse m stNotAllowed
      else
        (s, [Task.append (.albumDropped a)] ++ al.entries.flatMap (fun id => [Task.takeEntry a, .albumFall id]) ++
              [.freeAlbum a, .send (s.replyTo m stOk (be 2 al.entries.length))])

/-- The entry at position 0 is taken out of an album being dropped (R53). -/
def takeEntry (a : Nat) (s : State) : Work :=
  match s.album? a with
  | none => s.idle
  | some al => (s.setAlbum a (some { al with entries := al.entries.tail }), [])

/-- A dropped album becomes FREE (R53). -/
def freeAlbum (a : Nat) (s : State) : Work := (s.setAlbum a none, [])

/-- The report of an album from a starting position of its entries on (R54, section 3.10). -/
def Album.report (a : Album) (start : Nat) : List Byte :=
  let ids := (a.entries.drop start).take 64
  be 1 a.owner ++ padTo 32 a.label ++ be 2 a.entries.length ++ be 2 start ++ be 1 ids.length ++ ids.flatMap (be 4)

/-- An ALBUM-LIST is answered (R54). -/
def albumList (m : Msg) (s : State) : Work :=
  let a := byteAt m.body 0
  if 63 < a then s.refuse m stBadRange
  else match s.album? a with
    | none => s.refuse m stNoSuch
    | some al => (s.reply m stOk (al.report (field m.body 1 2)), [])

end Sys2Proof.Machine
end

