-- ==== Sys2Proof/Machine/Stripes.lean ====
section
/-! DEFINITION. Machine/Stripes.lean: the Stripe Engine and the XOR Engine (Chapter 6). -/

namespace Sys2Proof.Machine

/-! ## Layout -/

/-- K, the data slots of a stripe (R94). -/
def State.dataSlots (s : State) : Nat := s.disks - 1

/-- The member holding the parity slot of a stripe (R94). -/
def State.parityMember (s : State) (n : Nat) : Nat := n % s.disks

/-- The member holding a data slot of a stripe (R94). -/
def State.dataMember (s : State) (n i : Nat) : Nat := (n + 1 + i) % s.disks

/-- The data slot a member holds of a stripe, none where it holds the parity slot (R94). -/
def State.slotOn (s : State) (n m : Nat) : Option Nat :=
  if n % s.disks = m then none else some ((m + s.disks * (n + 1) - n - 1) % s.disks)

/-- First byte of a stripe's slots on their members (R94). -/
def stripeAddr (n : Nat) : Nat := Config.stripeBase + n * Config.mib

/-- A member counts as missing for a stripe (R107). -/
def State.missing (s : State) (n m : Nat) : Bool :=
  s.condOf m = some .failed || (s.condOf m = some .rebuilding && s.store.pointer.all fun p => p ≤ n) ||
    (s.stripe? n).any fun r => r.missed = some m

/-- The member's slot of a stripe is void. -/
def State.voidOn (s : State) (n m : Nat) : Bool :=
  (s.slotOn n m).any fun i => (s.stripe? n).any fun r => r.voids.contains i

/-- The source members of a reconstruction: every other slot that is not void, in member order (R108). -/
def State.sourcesOf (s : State) (n target : Nat) : List Nat :=
  s.memberIds.filter fun m => m ≠ target && !s.voidOn n m

/-- A reconstruction of a member's slot can be read (R107). -/
def State.canRebuild (s : State) (n target : Nat) : Bool := (s.sourcesOf n target).all fun m => !s.missing n m

/-! ## Assembly -/

/-- The FILLING stripe. -/
def State.filling? (s : State) : Option (Nat × Stripe) := s.store.table.find? fun p => p.2.state = .filling

/-- The lowest-numbered FREE stripe (R95): the numbers of the rising table up to the first gap. -/
def lowestGap : Nat → List Nat → Nat
  | n, [] => n
  | n, k :: ks => if k = n then lowestGap (n + 1) ks else n

/-- The stripe assembly takes next, if one is FREE (R97). -/
def State.freeStripe? (s : State) : Option Nat :=
  let n := lowestGap 0 (s.store.table.map (·.1))
  if n < s.store.stripeCount then some n else none

/-- A stripe just taken for filling (R97). -/
def newStripe : Stripe where
  state := .filling
  live := 0
  voids := []
  missed := none
  phase := .gathering
  filled := []
  writeSet := []
  ended := false
  lastStored := none
  stored := none
  hold := 0
  busy := 0
  stray := 0
  release := none
  releaseDue := 0
  parity := none

/-- Where the next chunk goes: the stripe in GATHERING with a free data slot, else a FREE stripe (R97). -/
def State.fillTarget (s : State) : Option (Nat × Nat) :=
  match s.filling? with
  | some (n, r) => if r.phase = .gathering && r.filled.length < s.dataSlots then some (n, r.filled.length) else none
  | none => s.freeStripe?.map fun n => (n, 0)

/-- A chunk is placed in a data slot (R25, R97). -/
def State.draw (s : State) (e : Entry) (n i : Nat) : State :=
  let s := if i = 0 then
      { s with store.table := insertStripe n newStripe s.store.table, store.closeTimer := some (s.now + Config.closeTime) }
    else s
  let s := s.updStripe n fun r =>
    { r with live := r.live + 1, filled := r.filled ++ [{ name := e.name, length := e.length, pages := e.pages, freed := false }] }
  let s := s.updEntry e.name fun e => { e with state := .striping, loc := some (n, i) }
  { s with buf.staged := s.buf.staged.filter fun m => m ≠ e.name }

/-- The Content Index grants the move to STRIPING (R25). -/
def Entry.grantable (e : Entry) : Bool := e.state = .staged && e.refcount ≠ 0

/-- The walk over the staged list (R97). -/
def State.walkOver (s : State) : List Name → State
  | [] => s
  | n :: ns =>
    match s.fillTarget, s.entry? n with
    | some (k, i), some e => if e.grantable then (s.draw e k i).walkOver ns else s.walkOver ns
    | none, _ => s
    | _, none => s.walkOver ns

/-- The FILLING stripe is GATHERING with every data slot filled (R98). -/
def State.full (s : State) : Bool := s.filling?.any fun p => p.2.phase = .gathering && s.dataSlots ≤ p.2.filled.length

/-- The Stripe Engine walks the staged list (R97). -/
def walk (s : State) : Work :=
  if s.store.cond = some .whole || s.store.cond = some .degraded then
    let s := s.walkOver s.buf.staged
    (s, if s.full then [.closeStripe] else [])
  else s.idle

/-- The stripe in GATHERING closes (R98). -/
def closeStripe (s : State) : Work :=
  match s.filling? with
  | none => s.idle
  | some (n, r) =>
    if r.phase = .gathering then
      ({ s.updStripe n (fun r => { r with
            phase := .parity
            voids := (List.range s.dataSlots).filter fun i => r.filled.length ≤ i }) with store.closeTimer := none },
       [.askParity n])
    else s.idle

/-- The close timer expires (R98). -/
def closeExpiry (s : State) : Work := if s.due s.store.closeTimer then (s, [.closeStripe]) else s.idle

/-! ## The XOR Engine -/

/-- The bytes of the reads of a parity job's inputs, one read for each filled slot, and of the write of its result: the
parity image of 1 MiB (R99, R100). -/
def State.parityTransfers (s : State) (n : Nat) : List Nat :=
  ((s.stripe? n).map fun r => r.filled.map (·.length)).getD [] ++ [Config.mib]

/-- The bytes of the reads of a reconstruction job's source spaces and of the write of its result (R100, R108). -/
def State.reconTransfers (s : State) (id : Nat) : List Nat :=
  match s.job? id with
  | none => []
  | some j => j.sources.map (fun _ => j.length) ++ [j.length]

/-- The head of the parity list is taken (R100). -/
def State.takeParity (s : State) : State :=
  match s.store.parityList with
  | [] => s
  | n :: ns =>
    State.issueAll { s with store.parityList := ns, store.xorBusy := some (.parity n), store.reconLast := false } .xor
      (s.parityTransfers n)

/-- The head of the reconstruction list is taken (R100). -/
def State.takeRecon (s : State) : State :=
  match s.store.reconList with
  | [] => s
  | j :: js =>
    State.issueAll { s.updJob j (fun j => { j with stage := .computing }) with
      store.reconList := js, store.xorBusy := some (.recon j), store.reconLast := true } .xor (s.reconTransfers j)

/-- The job the idle engine takes: the head of the list it did not serve last, else of the other; its reads and its write
pass through the DRAM port arbiter (R100, assumption log 8). In DEEP the engines are stopped (R168). -/
def State.takeJob (s : State) : State :=
  if s.inDeep || s.store.xorBusy.isSome then s
  else if s.store.reconLast then (if s.store.parityList.isEmpty then s.takeRecon else s.takeParity)
  else if s.store.reconList.isEmpty then s.takeParity else s.takeRecon

/-- The parity image of the filled slots is formed in the parity pages (R99). -/
def State.formParity (s : State) (r : Stripe) : State :=
  match r.parity with
  | none => s
  | some set =>
    { s with buf.stagingMem :=
        r.filled.foldl (fun mem f => mem.xorPages set (s.buf.stagingMem.chunkImage f.pages f.length)) (s.buf.stagingMem.clearPages set) }

/-- A parity job ends (R99, R100). In DEEP the engines are stopped (R168). -/
def parityJobEnd (s : State) : Work :=
  if s.inDeep then s.idle
  else match s.store.xorBusy with
  | some (.parity n) =>
    let s := { s with store.xorBusy := none }
    match s.stripe? n with
    | none => s.idle
    | some r =>
      if r.state = .filling && r.phase = .parity then
        ((s.formParity r).updStripe n fun r => { r with phase := .queueing }, [.judgeQueueing])
      else s.idle
  | _ => s.idle

/-- The result space receives the XOR of the source spaces (R108). -/
def State.formResult (s : State) (j : Job) (place : Nat) : State :=
  let base := spaceBase place j.target
  let mem := j.sources.foldl
    (fun mem m => mem.xorInto base (s.buf.placeMem.slice (spaceBase place m.1) j.length))
    (s.buf.placeMem.clear base Config.mib)
  { s with buf.placeMem := mem }

/-- The result's first bytes, as many as the job's length. -/
def State.resultBytes (s : State) (j : Job) : List Byte :=
  match j.place with
  | none => []
  | some p => (List.range j.length).map fun i => s.buf.placeMem.read (spaceBase p j.target + i)

/-- Bytes land in the first pages of a copy. -/
def State.fillCopy (s : State) (id : Nat) (bytes : List Byte) : State :=
  match s.copy? id with
  | none => s
  | some c => { s with buf.cacheMem := s.buf.cacheMem.putChunk c.pages 0 bytes }

/-- A job is removed. -/
def State.dropJob (s : State) (id : Nat) : State := { s with store.jobs := s.store.jobs.filter fun j => j.id ≠ id }

/-- The tasks that free a job's place, if it has one. -/
def Job.placeTasks (j : Job) : List Task := j.place.toList.map fun _ => Task.freePlace

/-- A reconstruction job of the XOR Engine ends (R100, R108, R110, R112). In DEEP the engines are stopped (R168). -/
def reconstructionJobEnd (s : State) : Work :=
  if s.inDeep then s.idle
  else match s.store.xorBusy with
  | some (.recon id) =>
    let s := { s with store.xorBusy := none }
    match s.job? id with
    | none => s.idle
    | some j =>
      let s := match j.place with
        | none => s
        | some p => s.formResult j p
      match j.kind with
      | .read c =>
        (((s.fillCopy c (s.resultBytes j)).updCopy c fun c => { c with rebuilt := true }).dropJob id,
         j.placeTasks ++ [.busyDown j.stripe, .landed c])
      | .repair c => ((s.fillCopy c (s.resultBytes j)).updJob id fun j => { j with stage := .verifying }, [.landed c])
      | .rebuild =>
        (s.updJob id fun j => { j with stage := .rewriting },
         (s.bayOf j.target).toList.map fun b => .offer b .stripe (.writeSlot j.stripe (.rebuild id)))
  | _ => s.idle

/-! ## Write-out -/

/-- A write of the write-out: the member, and the pages and bytes its slot takes (R101). -/
def State.writesOf (s : State) (n : Nat) (r : Stripe) : List (Nat × List Nat × Nat) :=
  ((s.parityMember n, r.parity.getD [], Config.mib) ::
      r.filled.zipIdx.map fun f => (s.dataMember n f.2, f.1.pages, f.1.length)).filter fun w => s.condOf w.1 ≠ some .failed

/-- The bays a write-out needs. -/
def State.writeBays (s : State) (n : Nat) (r : Stripe) : List BayNo := (s.writesOf n r).filterMap fun w => s.bayOf w.1

/-- Every bay a QUEUEING stripe needs has a free place in its queue (R101). -/
def State.queuesOpen (s : State) (n : Nat) (r : Stripe) : Bool :=
  (s.writeBays n r).all fun b => s.bays[b].queue.length < Config.bayPlaces

/-- The stripe that waits in QUEUEING. -/
def State.queueing? (s : State) : Option (Nat × Stripe) :=
  s.store.table.find? fun p => p.2.state = .filling && p.2.phase = .queueing

/-- One write command joins its bay's queue. -/
def State.queueWrite (s : State) (n : Nat) (w : Nat × List Nat × Nat) : State :=
  match s.bayOf w.1 with
  | none => s
  | some b => s.updBay b fun x => { x with queue := x.queue ++ [.writeSlot n (.writeOut w.1 w.2.1 w.2.2)] }

/-- The FAILED member that holds a filled slot of the stripe (R101). -/
def State.missedAtBirth (s : State) (n : Nat) (r : Stripe) : Option Nat :=
  ((List.range r.filled.length).map (s.dataMember n)).find? fun m => s.condOf m = some .failed

/-- A QUEUEING stripe queues its write-out when every queue it needs has room (R101). -/
def judgeQueueing (s : State) : Work :=
  match s.queueing? with
  | none => s.idle
  | some (n, r) =>
    if s.queuesOpen n r then
      let ws := s.writesOf n r
      let missed := s.missedAtBirth n r
      let bays := s.writeBays n r
      let s := ws.foldl (fun s w => s.queueWrite n w) s
      let s := s.updStripe n fun r => { r with state := .writing, writeSet := ws.map fun w => (w.1, .pending), missed := missed }
      ({ s with store.writing := s.store.writing ++ [n] }, bays.map Task.pump ++ [.judgeWriteOut n, .walk, .rebuildStep])
    else s.idle

/-- A write of a write-out has ended (R102, R104); one of an abandoned write-out only leaves the busy count (R105). -/
def writeEnded (n m : Nat) (done : Bool) (s : State) : Work :=
  match s.stripe? n with
  | none => s.idle
  | some r =>
    if r.state = .writing then
      (s.updStripe n fun r => { r with
          writeSet := r.writeSet.map fun w => if w.1 = m then (m, if done then .done else .failed) else w
          missed := if done then r.missed else some m },
       [.judgeWriteOut n])
    else if 0 < r.stray then
      (s.updStripe n fun r => { r with stray := r.stray - 1, busy := r.busy - 1 }, if r.stray = 1 then [.abandonTail n] else [])
    else s.idle

/-- The write-out has ended when no member is pending; its records are then appended in slot order (R102). -/
def judgeWriteOut (n : Nat) (s : State) : Work :=
  match s.stripe? n with
  | none => s.idle
  | some r =>
    if r.state = .writing && !r.ended && r.writeSet.all fun w => w.2 ≠ .pending then
      (s.updStripe n fun r => { r with ended := true },
       (List.range r.filled.length).map (Task.appendStored n) ++ [.writeOutTail n])
    else s.idle

/-- The STRIPING entry at a location. -/
def State.stripingAt (s : State) (l : Loc) : Option Entry :=
  s.index.find? fun e => e.state = .striping && e.loc = some l

/-- The CHUNK-STORED record of a slot's entry is appended (R26, R102). -/
def appendStored (n i : Nat) (s : State) : Work :=
  match s.stripe? n, s.stripingAt (n, i) with
  | some r, some e =>
    if r.state = .writing then (s, [.append (.chunkStored e.name e.length e.check n i e.payer), .markStored n e.name]) else s.idle
  | _, _ => s.idle

/-- The record has entered: the stored-record mark, and the stripe's last position (R26, R102). -/
def markStored (n : Nat) (name : Name) (s : State) : Work :=
  ((s.updEntry name fun e => { e with mark := true }).updStripe n fun r => { r with lastStored := some s.journal.lastPos }, [])

/-- Steps 2 and 3 of R102: the pages of freed entries are returned once, so that an abandonment does not return them again
(R105). -/
def writeOutTail (n : Nat) (s : State) : Work :=
  match s.stripe? n with
  | none => s.idle
  | some r =>
    if r.state = .writing then
      (s.updStripe n fun r => { r with stored := r.lastStored, filled := r.filled.map fun f => { f with freed := false } },
       ((r.filled.filter (·.freed)).map fun f => Task.pagesDue f.pages) ++
         (if r.lastStored.isNone then [.stripeHeld n] else [.judgeStored n]))
    else s.idle

/-- A WRITING stripe whose stored position is written goes on as R103 gives, its entries becoming STORED in data slot order (DESIGN
CHOICE, assumption log 38). -/
def judgeStored (n : Nat) (s : State) : Work :=
  match s.stripe? n with
  | none => s.idle
  | some r =>
    if r.state = .writing && r.stored.any (fun p => p.1 ≤ s.journal.written) then
      (s, (List.range r.filled.length).map (Task.slotStored n) ++ [.stripeHeld n])
    else s.idle

/-- The entry at a slot becomes STORED, and the Object Table takes the report of it (R26, R44, R103). -/
def slotStored (n i : Nat) (s : State) : Work :=
  match s.stripingAt (n, i) with
  | none => s.idle
  | some e =>
    let t := s.storeEntry e
    (t, [.pagesDue e.pages] ++ e.prior.toList.map (fun l => Task.judgeStripe l.1) ++ t.entrySettled e)

/-- The stripe leaves WRITING: its parity set is released, and it is HELD or RELEASING (R103). -/
def stripeHeld (n : Nat) (s : State) : Work :=
  match s.stripe? n with
  | none => s.idle
  | some r =>
    if r.state = .writing then
      let s := s.updStripe n fun r => { r with
        state := if r.live = 0 then .releasing else .held
        writeSet := [], stored := none, lastStored := none, filled := [], parity := none, ended := false }
      ({ s with store.writing := s.store.writing.filter fun k => k ≠ n },
       r.parity.toList.map Task.releaseParity ++ [.judgeStripe n, .rebuildStep])
    else s.idle

/-- A stripe is judged by R106. -/
def judgeStripe (n : Nat) (s : State) : Work :=
  match s.stripe? n with
  | none => s.idle
  | some r =>
    match r.state with
    | .held => if r.live = 0 then (s.updStripe n fun r => { r with state := .releasing }, [.judgeStripe n, .rebuildStep]) else s.idle
    | .releasing =>
      if r.live ≠ 0 then (s.updStripe n fun r => { r with state := .held }, [])
      else if r.hold = 0 && r.busy = 0 && r.stray = 0 && r.releaseDue = 0 && r.release.all (fun p => p.1 ≤ s.journal.written) then
        (s.dropStripe n, [.walk])
      else s.idle
    | _ => s.idle

/-- A stripe's busy count falls (R95). -/
def busyDown (n : Nat) (s : State) : Work :=
  (s.updStripe n fun r => { r with busy := r.busy - 1 }, [.judgeStripe n])

/-! ## Abandoning (R105) -/

/-- A write command of a stripe's write-out. -/
def DiskCmd.isWriteOf (n : Nat) : DiskCmd → Bool
  | .writeSlot k (.writeOut _ _ _) => k = n
  | _ => false

/-- The issued writes of a stripe's write-out. -/
def State.issuedWrites (s : State) (n : Nat) : Nat :=
  s.bays.toList.countP fun b => b.flight.any fun f => f.cmd.isWriteOf n

/-- Commands are withdrawn from every queue and from what the givers keep (R118). -/
def State.withdraw (s : State) (p : DiskCmd → Bool) : State :=
  { s with bays := s.bays.map fun b => { b with queue := b.queue.filter fun c => !p c, kept := b.kept.filter fun k => !p k.2 } }

/-- One stripe is abandoned, steps 1 to 3 and 5; its entries' names come in data slot order. -/
def State.abandonStripe (s : State) (n : Nat) : State × List Name :=
  match s.stripe? n with
  | none => (s, [])
  | some r =>
    let issued := s.issuedWrites n
    let names := (r.filled.zipIdx.filterMap fun f => s.stripingAt (n, f.2)).map (·.name)
    let s := s.withdraw (DiskCmd.isWriteOf n)
    let s := { s with
      store.parityList := s.store.parityList.filter fun k => k ≠ n
      buf.parityWait := s.buf.parityWait.filter fun k => k ≠ n
      index := s.index.map fun (e : Entry) => if names.contains e.name then { e with state := .staged, loc := none } else e }
    (s.updStripe n fun r => { r with
        state := .releasing, live := r.live - names.length, stray := issued, busy := r.busy + issued
        writeSet := [], stored := none, lastStored := none, ended := false },
     names)

/-- Every WRITING stripe and then the FILLING stripe is abandoned (R93, R105). -/
def State.abandonAll (s : State) : State × List Nat :=
  let ns := s.store.writing ++ s.filling?.toList.map (·.1)
  let r := ns.foldl (fun (a : State × List Name) n =>
    let b := a.1.abandonStripe n
    (b.1, a.2 ++ b.2)) (s, [])
  ({ r.1 with buf.staged := r.2 ++ r.1.buf.staged, store.writing := [], store.closeTimer := none }, ns)

/-- Step 4 of R105, once the issued writes of an abandoned stripe have ended. -/
def abandonTail (n : Nat) (s : State) : Work :=
  match s.stripe? n with
  | none => s.idle
  | some r =>
    if r.state = .releasing && r.stray = 0 then
      (s.updStripe n fun r => { r with filled := [], parity := none },
       ((r.filled.filter (·.freed)).map fun f => Task.pagesDue f.pages) ++ r.parity.toList.map Task.releaseParity ++ [.judgeStripe n])
    else s.idle

/-- What the Stripe Engine does when the store turns BROKEN (R93): the rebuild has been halted; stripes are abandoned, then
closing runs complete with DISK_FAULT (R66), several in the order of the run table (DESIGN CHOICE, assumption log 38), and the
Journal Unit stops (R183). -/
def storeBroken (s : State) : Work :=
  let r := s.abandonAll
  (r.1, r.2.map Task.abandonTail ++ bayNos.map Task.placeFreed ++
    ((r.1.ingest.runs.filter fun x => x.closing && x.reclaimed).map fun x => Task.completeRun x.id false) ++ [.stopJournal])

/-! ## Reads and reconstruction -/

/-- A chunk read is routed (R107). -/
def routeRead (id : Nat) (s : State) : Work :=
  match s.copy? id with
  | none => s.idle
  | some c =>
    let n := c.loc.1
    let m := s.dataMember n c.loc.2
    let direct := if s.missing n m then none else s.bayOf m
    match direct with
    | some b => (s, [.offer b .stripe (.readSlot n c.length (.copy id))])
    | none =>
      if s.canRebuild n m then (s, [.newJob (.read id) n m c.length])
      else (s, [.markLost c.name c.loc, .readFailed id, .busyDown n])

/-- A free reconstruction place (R108), of several the lowest-numbered (DESIGN CHOICE, assumption log 40). -/
def State.freePlace? (s : State) : Option Nat :=
  (List.range Config.reconPlaces).find? fun p => !s.store.jobs.any fun j => j.place = some p

/-- A reconstruction job takes a free place or waits for one, behind the jobs that wait already (R108). -/
def newJob (kind : JobKind) (n target length : Nat) (s : State) : Work :=
  let id := s.store.nextJob
  let place := if s.store.placeWait.isEmpty then s.freePlace? else none
  let j : Job := { id := id, kind := kind, stripe := n, target := target, length := length, place := place, sources := [],
                   stage := .waitPlace }
  let s := { s with store.jobs := s.store.jobs ++ [j], store.nextJob := id + 1 }
  match place with
  | some _ => (s, [.startJob id])
  | none => ({ s with store.placeWait := s.store.placeWait ++ [id] }, [])

/-- A job with a place queues its source reads, each in the stripe's busy count (R108). -/
def startJob (id : Nat) (s : State) : Work :=
  match s.job? id with
  | none => s.idle
  | some j =>
    let ms := s.sourcesOf j.stripe j.target
    let s := s.updJob id fun j => { j with stage := .reading, sources := ms.map fun m => (m, .queued) }
    (s.updStripe j.stripe fun r => { r with busy := r.busy + ms.length },
     ms.map fun m => match s.bayOf m with
       | some b => .offer b .stripe (.readSlot j.stripe j.length (.source id m))
       | none => .sourceEnded id m j.stripe false)

/-- A place frees: the oldest waiting job takes it (R108). -/
def freePlace (s : State) : Work :=
  match s.store.placeWait, s.freePlace? with
  | id :: rest, some place => ({ s with store.placeWait := rest }.updJob id fun j => { j with place := some place }, [.startJob id])
  | _, _ => s.idle

/-- What a job whose source read failed does: it is impossible (R107, R108, R110). -/
def State.jobImpossible (s : State) (j : Job) : Work :=
  match j.kind with
  | .read c =>
    match s.copy? c with
    | none => (s.dropJob j.id, j.placeTasks)
    | some c => (s.dropJob j.id, [.markLost c.name c.loc, .readFailed c.id, .busyDown j.stripe] ++ j.placeTasks)
  | .repair c => (s, [.repairFailed c])
  | .rebuild => (s.dropJob j.id, [.busyDown j.stripe] ++ j.placeTasks)

/-- A source read has ended (R108). -/
def sourceEnded (id m n : Nat) (landed : Bool) (s : State) : Work :=
  let s := s.updStripe n fun r => { r with busy := r.busy - 1 }
  match s.job? id with
  | none => (s, [.judgeStripe n])
  | some j =>
    if j.stage ≠ .reading then (s, [.judgeStripe n])
    else if landed then
      let sources := j.sources.map fun x => if x.1 = m then (m, .landed) else x
      let s := s.updJob id fun j => { j with sources := sources }
      if sources.all fun x => x.2 = .landed then
        ({ s.updJob id (fun j => { j with stage := .xorWait }) with store.reconList := s.store.reconList ++ [id] }, [.judgeStripe n])
      else (s, [.judgeStripe n])
    else
      let w := s.jobImpossible j
      (w.1, w.2 ++ [.judgeStripe n])

/-- The read of a copy. -/
def DiskCmd.isReadOf (id : Nat) : DiskCmd → Bool
  | .readSlot _ _ (.copy k) => k = id
  | _ => false

/-- A source read of a job. -/
def DiskCmd.isSourceOf (id : Nat) : DiskCmd → Bool
  | .readSlot _ _ (.source k _) => k = id
  | _ => false

/-- A command waits in some queue, or with its giver. -/
def State.waits (s : State) (p : DiskCmd → Bool) : Bool :=
  s.bays.toList.any fun b => b.queue.any p || b.kept.any fun k => p k.2

/-- The read of a copy has been withdrawn: the copy is removed once nothing pins it (R86, R109). -/
def State.withdrawn (s : State) (id : Nat) : State := s.updCopy id fun c => { c with work := false, drop := true }

/-- A read whose copy lost its last pin is withdrawn by its progress (R109). -/
def withdrawRead (id : Nat) (s : State) : Work :=
  match s.copy? id with
  | none => s.idle
  | some c =>
    let places := bayNos.map Task.placeFreed
    if s.waits (DiskCmd.isReadOf id) then
      ((s.withdraw (DiskCmd.isReadOf id)).withdrawn id, [.busyDown c.loc.1, .reapCopy id] ++ places)
    else match s.store.jobs.find? fun j => j.kind = .read id with
      | none => s.idle
      | some j =>
        if j.stage = .waitPlace then
          (({ s with store.placeWait := s.store.placeWait.filter fun k => k ≠ j.id }.dropJob j.id).withdrawn id,
           [.busyDown c.loc.1, .reapCopy id])
        else if j.stage = .reading && j.sources.all fun x => x.2 = .queued then
          let s := s.updStripe j.stripe fun r => { r with busy := r.busy - j.sources.length }
          (((s.withdraw (DiskCmd.isSourceOf j.id)).dropJob j.id).withdrawn id,
           [.busyDown c.loc.1, .reapCopy id] ++ j.placeTasks ++ places)
        else s.idle

/-! ## Repair (R110) -/

/-- The repair job of a copy. -/
def State.repairJob? (s : State) (id : Nat) : Option Job := s.store.jobs.find? fun j => j.kind = .repair id

/-- A copy's check mismatched: the read is repaired, or the repair is impossible (R110). -/
def repair (id : Nat) (s : State) : Work :=
  match s.copy? id with
  | none => s.idle
  | some c =>
    let n := c.loc.1
    let m := s.dataMember n c.loc.2
    if c.rebuilt || !s.canRebuild n m then (s, [.repairFailed id])
    else
      (s.updStripe n fun r => { r with busy := r.busy + 1 }, [.newJob (.repair id) n m c.length, .raise .repair])

/-- The repair checked good: the rewrite is queued, unless the member is now missing (R110). -/
def repaired (id : Nat) (s : State) : Work :=
  match s.repairJob? id with
  | none => s.idle
  | some j =>
    match if s.missing j.stripe j.target then none else s.bayOf j.target with
    | some b => (s.updJob j.id fun j => { j with stage := .rewriting }, [.offer b .stripe (.writeSlot j.stripe (.rewrite j.id))])
    | none => (s, [.repairEnded j.id])

/-- The repair has failed or is impossible (R110). -/
def repairFailed (id : Nat) (s : State) : Work :=
  match s.copy? id with
  | none => s.idle
  | some c =>
    let lost : List Task := [.markLost c.name c.loc, .readFailed id]
    match s.repairJob? id with
    | none => (s, lost ++ [.repairDemand])
    | some j => (s.dropJob j.id, lost ++ j.placeTasks ++ [.busyDown j.stripe, .repairDemand])

/-- A repair ends (R110). -/
def repairEnded (id : Nat) (s : State) : Work :=
  match s.job? id with
  | none => s.idle
  | some j =>
    let s := s.dropJob id
    match j.kind with
    | .repair c => (s.updCopy c fun c => { c with work := false }, j.placeTasks ++ [.busyDown j.stripe, .reapCopy c, .repairDemand])
    | _ => (s, j.placeTasks ++ [.busyDown j.stripe])

/-- A job is a repair. -/
def Job.isRepair (j : Job) : Bool :=
  match j.kind with
  | .repair _ => true
  | _ => false

/-- The repair demand is held while any repair is in progress (R110). -/
def repairDemand (s : State) : Work := (s, if s.store.jobs.any Job.isRepair then [.raise .repair] else [.lower .repair])

/-! ## Members and the store condition -/

/-- The store condition the member table gives (R93); one FAILED member beside a REBUILDING one, for which R93 has no row, gives
DEGRADED (DESIGN CHOICE, assumption log 21). -/
def State.tableCond (s : State) : StoreCond :=
  if 2 ≤ s.memberIds.countP fun m => s.condOf m = some .failed then .broken
  else if s.memberIds.any fun m => s.condOf m ≠ some .ok then .degraded else .whole

/-- The store condition is judged again; BROKEN and ABSENT stay until a reset, and it is not judged before start-up ends
(R93). -/
def judgeCond (s : State) : Work :=
  if s.power.state = .starting || s.broken || s.absent || s.store.cond = some s.tableCond then s.idle
  else
    let s := { s with store.cond := some s.tableCond }
    (s, if s.broken then [.haltRebuild, .storeBroken] else [.walk])

/-- The label of a member in a round (R117). -/
def State.labelOf (s : State) (generation m : Nat) : Label where
  boxTag := s.loader.image.boxTag
  storeId := s.journal.storeId
  generation := generation
  members := s.disks
  own := m
  conds := (List.range 4).map fun i => ((s.condOf i).map MemberCond.code).getD 0xFF
  stripes := s.store.stripeCount

/-- A LABEL write of a new generation is queued to every member that is not FAILED (R92, R117). The number after
4,294,967,295, of which the manual says nothing, is 4,294,967,296, and its label field holds the low 32 bits (DESIGN CHOICE,
assumption log 41). -/
def labelRound (s : State) : Work :=
  let g := s.labelGen.getD 0 + 1
  ({ s with labelGen := some g },
   s.liveMembers.filterMap fun m => (s.bayOf m).map fun b => .offer b .stripe (.labelWrite (s.labelOf g m)))

/-- A member entry becomes FAILED and loses its bay (R92). -/
def State.failMember (s : State) (m : Nat) : State := s.updMember m fun _ => { bay := none, cond := .failed }

/-- The member a running rebuild writes (R111). -/
def State.rebuildTarget (s : State) : Option Nat := if s.store.pointer.isSome then s.rebuildingMember else none

/-- A member fails; while a rebuild runs the REBUILDING member becomes FAILED with it (R92, R113). Both changes are one
change of the member table, with one label round (DESIGN CHOICE, assumption log 40). A stripe in QUEUEING is judged before the
rebuild conditions (DESIGN CHOICE, assumption log 42). -/
def memberFailed (m : Nat) (s : State) : Work :=
  if s.condOf m = some .failed || (s.member? m).isNone then s.idle
  else
    let r := s.rebuildTarget
    let t := s.failMember m
    let t := match r with
      | none => t
      | some k => t.failMember k
    (t, (if r.isSome then [Task.haltRebuild] else []) ++ [.judgeCond, .labelRound, .memberLeft m] ++ r.toList.map Task.memberLeft ++ [.endWork, .judgeQueueing, .rebuildStep, .judgeRebuild, .judgeAwake])

/-! ## Rebuild -/

/-- Bytes a member disk needs for S stripes (R111). -/
def State.diskNeed (s : State) : Nat := Config.stripeBase + s.store.stripeCount * Config.mib

/-- The lowest bay with a disk fit for a rebuild (R111, R115). -/
def State.fitBay (s : State) : Option BayNo :=
  bayNos.find? fun b =>
    let x := s.bays[b]
    (x.state = .blank || x.state = .stale) && !x.faulted && x.capacity.any fun c => s.diskNeed ≤ c

/-- The zeros a new member's ring and checkpoint headers get, behind its label (R182). -/
def ringZeros (b : BayNo) : List Task :=
  (List.range 512).map (fun k => Task.offer b .journal (.writeJournal (Config.ringBase + k * Config.mib) Config.mib .zeros)) ++
    [.offer b .journal (.writeJournal Config.areaA Config.blockBytes .zeros),
     .offer b .journal (.writeJournal Config.areaB Config.blockBytes .zeros)]

/-- The bay becomes MEMBER in STANDBY with an empty queue (R117). -/
def State.adopt (s : State) (b : BayNo) (m : Nat) : State :=
  s.updBay b fun x => { x with state := .member, substate := some .standby, member := some m, queue := [], kept := [] }

/-- The rebuild conditions are judged (R111). -/
def judgeRebuild (s : State) : Work :=
  if s.power.state = .starting || s.power.state = .deep || !s.loader.image.autoRebuild || s.store.cond ≠ some .degraded ||
      s.rebuildingMember.isSome then s.idle
  else match s.failedMember, s.fitBay with
    | some m, some b =>
      let s := (s.adopt b m).updMember m fun _ => { bay := some b, cond := .rebuilding }
      ({ s with store.pointer := some 0 },
       [.labelRound] ++ ringZeros b ++ [.raise .rebuild] ++
         (if s.power.state = .waking || s.power.state = .awake then [.spinUp b] else []) ++ [.substateReport, .rebuildStep])
    | _, _ => s.idle

/-- A rebuild step is in progress. -/
def State.rebuildBusy (s : State) : Bool := s.store.jobs.any fun j => j.kind = .rebuild

/-- The first stripe at or past a number that is not FREE. -/
def State.nextStripe (s : State) (p : Nat) : Option (Nat × Stripe) := s.store.table.find? fun x => p ≤ x.1

/-- A source slot of a rebuild step lies on a member that was FAILED before the rebuild began (assumption log 21). -/
def State.stepBlocked (s : State) (n r : Nat) : Bool := (s.sourcesOf n r).any fun m => s.condOf m = some .failed

/-- The rebuild handles the stripes from its pointer on, FREE ones passed at once, until one needs work or a wait (R112). A
stripe whose step another FAILED member makes impossible is waited for until it leaves HELD (DESIGN CHOICE, assumption
log 21). -/
def rebuildStep (s : State) : Work :=
  match s.store.pointer, s.rebuildingMember with
  | some p, some r =>
    if s.rebuildBusy || s.power.state = .starting then s.idle
    else match s.nextStripe p with
      | none => ({ s with store.pointer := some s.store.stripeCount }, [.rebuildEnd])
      | some (n, x) =>
        let s := { s with store.pointer := some n }
        let advance : Work := ({ s with store.pointer := some (n + 1) }, [.rebuildStep])
        match x.state with
        | .filling | .releasing => advance
        | .writing => s.idle
        | .held =>
          if s.voidOn n r then advance
          else if s.stepBlocked n r then s.idle
          else (s.updStripe n fun x => { x with busy := x.busy + 1 }, [.newJob .rebuild n r Config.mib])
  | _, _ => s.idle

/-- A rebuild write has ended done (R112). -/
def rebuildWritten (id : Nat) (s : State) : Work :=
  match s.job? id with
  | none => s.idle
  | some j =>
    let s := (s.dropJob id).updStripe j.stripe fun r => { r with missed := none }
    ({ s with store.pointer := s.store.pointer.map fun _ => j.stripe + 1 }, j.placeTasks ++ [.busyDown j.stripe, .rebuildStep])

/-- The pointer has reached S (R113); the rebuild conditions are judged at this change of a member's condition (R111). -/
def rebuildEnd (s : State) : Work :=
  match s.rebuildingMember with
  | none => s.idle
  | some r =>
    let s := s.updMember r fun m => { m with cond := .ok }
    ({ s with store.pointer := none, journal.wanted := true },
     [.judgeCond, .labelRound, .startCheckpoint, .lower .rebuild, .judgeRebuild, .judgeAwake])

/-- The write of a rebuild step. -/
def DiskCmd.isRebuildWrite : DiskCmd → Bool
  | .writeSlot _ (.rebuild _) => true
  | _ => false

/-- A rebuild halts: the step is abandoned, its source reads run on and are ignored (R108, R113), and its write is withdrawn
where it still waits (DESIGN CHOICE, assumption log 26). -/
def haltRebuild (s : State) : Work :=
  if s.store.pointer.isNone then s.idle
  else
    let s := s.withdraw DiskCmd.isRebuildWrite
    let js := s.store.jobs.filter fun j => j.kind = .rebuild
    ({ s with
        store.pointer := none
        store.jobs := s.store.jobs.filter (fun j => j.kind ≠ .rebuild)
        store.placeWait := s.store.placeWait.filter (fun k => !js.any fun j => j.id = k)
        store.reconList := s.store.reconList.filter (fun k => !js.any fun j => j.id = k) },
     js.flatMap (fun j => j.placeTasks ++ [.busyDown j.stripe]) ++ bayNos.map Task.placeFreed ++ [.lower .rebuild])

end Sys2Proof.Machine
end

