-- ==== Sys2Proof/Machine/Disks.lean ====
section
/-! DEFINITION. Machine/Disks.lean: the Disk Ports (Chapter 7): queues, issue and end of commands, failure, removal,
spin-up and spin-down, probing and labels. -/

namespace Sys2Proof.Machine

/-! ## Queues -/

/-- The member index of a MEMBER bay whose member is not FAILED. -/
def State.portMember (s : State) (b : BayNo) : Option Nat :=
  if s.bays[b].state = .member then s.bays[b].member.filter fun m => s.condOf m ≠ some .failed else none

/-- A giver already keeps a command for this bay. -/
def Bay.keeps (x : Bay) (g : Giver) : Bool := x.kept.any fun k => k.1 = g

/-- A block gives a command to a port: it joins the queue, is kept by its giver while the queue is full, or is reported
failed at once (R118). What formation gave a bay stands before every other giver's commands (R188, assumption log 7). -/
def offerCmd (b : BayNo) (g : Giver) (c : DiskCmd) (s : State) : Work :=
  if (s.portMember b).isNone then (s, [.cmdFailed b c])
  else if s.bays[b].queue.length < Config.bayPlaces && !s.bays[b].keeps g && !s.bays[b].keeps .startup then
    (s.updBay b fun x => { x with queue := x.queue ++ [c] }, [.pump b])
  else (s.updBay b fun x => { x with kept := x.kept ++ [(g, c)] }, [])

/-- Bytes a command moves through the DRAM port (R90, R119). -/
def DiskCmd.bytes : DiskCmd → Nat
  | .readSlot _ n _ => n
  | .writeSlot _ (.writeOut _ _ n) => n
  | .writeSlot _ _ => Config.mib
  | .readJournal _ n _ => n
  | .writeJournal _ n _ => n
  | .spinDown | .capacityRead => 0
  | .labelRead | .labelWrite _ => Config.blockBytes

/-- What the issue of a command changes at its giver: a source read is issued (R109); the next piece of a checkpoint joins
the queue (R185). -/
def DiskCmd.issued (c : DiskCmd) (s : State) : Work :=
  match c with
  | .readSlot _ _ (.source j m) =>
    (s.updJob j fun j => { j with sources := j.sources.map fun x => if x.1 = m then (m, .issued) else x }, [])
  | .writeJournal _ _ (.piece _ m k) => (s, [.offerPiece m (k + 1)])
  | _ => s.idle

/-- The port puts a command in flight, attempt 1 (R118). -/
def State.launch (s : State) (b : BayNo) (c : DiskCmd) : State :=
  (s.updBay b fun x => { x with flight := some { cmd := c, attempt := 1, issued := s.now } }).issue (diskRequester b) c.bytes

/-- The port issues its head command when ACTIVE with nothing in flight (R118); a SPIN-DOWN at the head of a bay in STANDBY
ends done at once (R123). A bay outside the store issues only the SPIN-DOWN that start-up left it (R192). -/
def pump (b : BayNo) (s : State) : Work :=
  let x := s.bays[b]
  match x.queue with
  | [] => s.idle
  | c :: rest =>
    if s.power.state = .deep || x.flight.isSome then s.idle
    else if x.state ≠ .member then
      (if c = .spinDown then ((s.updBay b fun x => { x with queue := rest }).launch b c, []) else s.idle)
    else if x.substate = some .active then
      let s := s.updBay b fun x => { x with queue := rest }
      let w := c.issued (s.launch b c)
      (w.1, w.2 ++ [.placeFreed b])
    else if x.substate = some .standby && c = .spinDown then
      (s.updBay b fun x => { x with queue := rest }, [.commandEnded true, .placeFreed b, .pump b])
    else s.idle

/-- Who may take a freed place: each giver's first kept command, and the stripe that waits in QUEUEING (R101, R118). -/
inductive Offerer where
  | giver (g : Giver)
  | stripe
  deriving DecidableEq, Repr

/-- The offerers for a freed place of a bay: while formation's commands wait they alone, so that they join in the order of R188
with the disk's first label last (assumption log 7). -/
def State.offerers (s : State) (b : BayNo) : List Offerer :=
  if s.bays[b].keeps .startup then [.giver .startup]
  else
    (([.stripe, .journal, .power] : List Giver).filter s.bays[b].keeps).map .giver ++
    (if s.queueing?.any fun p => s.queuesOpen p.1 p.2 && (s.writeBays p.1 p.2).contains b then [.stripe] else [])

/-- The offer taken for a freed place: where two givers offer, which is first is open (R118, assumption log 7). -/
def State.chooseOffer (s : State) (b : BayNo) : State × Option Offerer :=
  match s.offerers b with
  | [] => (s, none)
  | [o] => (s, some o)
  | o :: os =>
    ({ s with choices := s.choices + 1 }, (o :: os)[Config.offerChoice s.choices % (os.length + 1)]?)

/-- The first kept command of a giver joins the queue. -/
def State.joinKept (s : State) (b : BayNo) (g : Giver) : State :=
  match s.bays[b].kept.find? fun k => k.1 = g with
  | none => s
  | some k => s.updBay b fun x => { x with queue := x.queue ++ [k.2], kept := x.kept.erase k }

/-- A place of a bay's queue has become free (R101, R118). -/
def placeFreed (b : BayNo) (s : State) : Work :=
  if s.bays[b].queue.length < Config.bayPlaces then
    match s.chooseOffer b with
    | (s, none) => s.idle
    | (s, some (.giver g)) => (s.joinKept b g, [.pump b, .placeFreed b])
    | (s, some .stripe) => (s, [.judgeQueueing])
  else s.idle

/-! ## Ends of commands -/

/-- The command in flight has ended; the bay is free to issue the next. -/
def State.landFlight (s : State) (b : BayNo) : State := s.updBay b fun x => { x with flight := none }

/-- The command in flight of a bay. -/
def State.inFlight? (s : State) (b : BayNo) : Option DiskCmd := s.bays[b].flight.map (·.cmd)

/-- The command whose attempt a disk's report concerns: a report for an attempt that has failed is ignored (R120). -/
def State.reported? (s : State) (b : BayNo) (attempt : Nat) : Option DiskCmd :=
  (s.bays[b].flight.filter fun f => f.attempt = attempt).map (·.cmd)

/-- What follows every command that ends done (R119). -/
def doneTasks (b : BayNo) : List Task := [.endWork, .commandEnded true, .pump b]

/-- A READ-SLOT ends done: the bytes are in their pages, and the read is reported landed (R107, R108). -/
def readSlotDone (b : BayNo) (attempt : Nat) (data : List Byte) (s : State) : Work :=
  match s.reported? b attempt with
  | some (.readSlot n length (.copy id)) =>
    ((s.landFlight b).fillCopy id (padTo length data), [.busyDown n, .landed id] ++ doneTasks b)
  | some (.readSlot n length (.source j m)) =>
    let s := s.landFlight b
    let s := match (s.job? j).bind (·.place) with
      | none => s
      | some p => { s with buf.placeMem := s.buf.placeMem.writeBytes (spaceBase p m) (padTo length data) }
    (s, [.sourceEnded j m n true] ++ doneTasks b)
  | _ => s.idle

/-- A WRITE-SLOT ends done (R102, R110, R112). -/
def writeSlotDone (b : BayNo) (attempt : Nat) (s : State) : Work :=
  match s.reported? b attempt with
  | some (.writeSlot n u) =>
    (s.landFlight b,
     (match u with
      | .writeOut m _ _ => [Task.writeEnded n m true]
      | .rewrite j => [Task.repairEnded j]
      | .rebuild j => [Task.rebuildWritten j]) ++ doneTasks b)
  | _ => s.idle

/-- A WRITE-JOURNAL ends done (R182, R185, R188). -/
def writeJournalDone (b : BayNo) (attempt : Nat) (s : State) : Work :=
  match s.reported? b attempt with
  | some (.writeJournal _ _ u) => (s.landFlight b, [.journalEnded u true] ++ doneTasks b ++ [.judgeFormation])
  | _ => s.idle

/-- A READ-JOURNAL ends done (R189, R190). -/
def readJournalDone (b : BayNo) (attempt : Nat) (data : List Byte) (s : State) : Work :=
  match s.reported? b attempt with
  | some (.readJournal _ length u) => (s.landFlight b, [.loadEnded u (some (padTo length data))] ++ doneTasks b)
  | _ => s.idle

/-- A command has been reported failed to its giver (R118, R120); a failed direct read is routed again (R107). -/
def cmdFailed (_ : BayNo) (c : DiskCmd) (s : State) : Work :=
  match c with
  | .readSlot n _ (.copy id) => (s, if (s.copy? id).isSome then [.routeRead id] else [.busyDown n])
  | .readSlot n _ (.source j m) => (s, [.sourceEnded j m n false])
  | .writeSlot n (.writeOut m _ _) => (s, [.writeEnded n m false])
  | .writeSlot _ (.rewrite j) => (s, [.repairEnded j])
  | .writeSlot _ (.rebuild _) => s.idle
  | .readJournal _ _ u => (s, [.loadEnded u none])
  | .writeJournal _ _ u => (s, [.journalEnded u false])
  | .spinDown | .labelRead | .labelWrite _ | .capacityRead => s.idle

/-- A second failed attempt, a second spin-up timeout or a removal: the member is declared FAILED (R120, R121, R122). -/
def declareFailed (b : BayNo) (removed : Bool) (s : State) : Work :=
  (s, s.bays[b].member.toList.map Task.memberFailed ++ [.endPort b, .leaveMember b removed])

/-- The command in flight and then every command in the queue is reported failed, in order; a disk still present is one the
port has given up on (R115, R120). -/
def endPort (b : BayNo) (s : State) : Work :=
  let x := s.bays[b]
  let cs := x.flight.toList.map (·.cmd) ++ x.queue ++ x.kept.map (·.2)
  (s.updBay b fun x => { x with flight := none, queue := [], kept := [], faulted := x.faulted || x.present },
   [.endWork] ++ cs.flatMap (fun c => [Task.cmdFailed b c, .endWork]))

/-- An EMPTY bay whose disk is gone: every field cleared but the power enable and its power cycle (R121). -/
def Bay.emptied (x : Bay) : Bay := { Bay.reset false with power := x.power, offSince := x.offSince, latch := x.latch }

/-- The valid label of a bay that carries the configured box tag. -/
def State.ownLabel (s : State) (b : BayNo) : Option Label :=
  match s.bays[b].label with
  | some (.good l) => if l.boxTag = s.loader.image.boxTag then some l else none
  | _ => none

/-- No label is trusted: factory clear is strapped and the reset is COLD (R187). -/
def State.clearing (s : State) : Bool := s.loader.straps.factoryClear && s.loader.cold

/-- The disk counts as BLANK (R115, R187). -/
def State.countsBlank (s : State) (b : BayNo) : Bool :=
  s.bays[b].label = some .blank || (s.clearing && s.bays[b].label.isSome)

/-- The bay state a store found ABSENT leaves a probed disk in (R192, assumption log 32). Where factory clear lets no label be
trusted, a disk probed at start-up with another box's label or a bad one shows BLANK, as R187 counts it (DESIGN CHOICE,
assumption log 32). -/
def State.absentClass (s : State) (b : BayNo) : BayState :=
  if (s.ownLabel b).isSome then .foreign else if s.countsBlank b then .blank else .foreign

/-- The bay leaves MEMBER: EMPTY when its disk is gone (R121), else STALE with the faulted mark (R120), or what R192 shows once
the store has been found ABSENT. -/
def leaveMember (b : BayNo) (removed : Bool) (s : State) : Work :=
  (s.updBay b fun x =>
      if removed then x.emptied
      else { x with
        state := if s.absent then s.absentClass b else .stale, substate := none, member := none, faulted := true, spin := none, offSince := none
        spinAgain := false, power := true },
   [.judgeRebuild, .substateReport, .judgeFormation])

/-- The attempt of the command in flight fails: it is issued again at once, or its second failure is taken (R120). In DEEP the
port issues nothing (R124). A bay that an ABSENT store has left ends as a probe that fails, FOREIGN and faulted (DESIGN CHOICE,
assumption log 32). -/
def attemptFailed (b : BayNo) (s : State) : Work :=
  match s.bays[b].flight with
  | none => s.idle
  | some f =>
    if s.inDeep then s.idle
    else if f.attempt = 1 then
      ((s.updBay b fun x => { x with flight := some { f with attempt := 2, issued := s.now } }).issue (diskRequester b) f.cmd.bytes,
       [])
    else if s.bays[b].state = .member then (s, [.declareFailed b false])
    else (s, [.probeFailed b])

/-- The disk reports an error for an attempt; one for an attempt that has failed already is ignored (R120). -/
def errorReport (b : BayNo) (attempt : Nat) (s : State) : Work :=
  if (s.reported? b attempt).isSome then attemptFailed b s else s.idle

/-- The 10 s of the command in flight pass (R120); no timer runs in DEEP (R124). -/
def commandTimeout (b : BayNo) (s : State) : Work :=
  if s.bays[b].flight.any fun f => f.issued + Config.commandTime ≤ s.now then attemptFailed b s else s.idle

/-! ## Spinning -/

/-- A spin-up begins: attempt 1 (R122). -/
def State.beginSpin (s : State) (b : BayNo) : State :=
  s.updBay b fun x => { x with
    substate := x.substate.map (fun _ => .spinningUp), spin := some { attempt := 1, start := s.now }, spinAgain := false }

/-- The spin-down in flight of a bay. -/
def State.spinningDown (s : State) (b : BayNo) : Bool := s.inFlight? b = some .spinDown

/-- A spin-up order for a MEMBER bay: a waiting SPIN-DOWN is withdrawn; an issued one is waited for (R122, R123). -/
def spinUp (b : BayNo) (s : State) : Work :=
  if s.bays[b].state ≠ .member then s.idle
  else
    let s := s.updBay b fun x =>
      { x with queue := x.queue.filter (fun c => c ≠ .spinDown), kept := x.kept.filter fun k => k.2 ≠ .spinDown }
    if s.spinningDown b then (s.updBay b fun x => { x with spinAgain := true }, [.placeFreed b])
    else if s.bays[b].substate = some .standby then (s.beginSpin b, [.placeFreed b, .judgeAwake])
    else (s, [.placeFreed b])

/-- A SPIN-DOWN ends done: the member is in STANDBY, and a spin-up ordered meanwhile begins (R123). -/
def spinDownDone (b : BayNo) (attempt : Nat) (s : State) : Work :=
  if s.reported? b attempt = some .spinDown then
    let s := (s.landFlight b).updBay b fun x => { x with substate := x.substate.map fun _ => .standby }
    let s := if s.bays[b].spinAgain then s.beginSpin b else s
    (s, [.commandEnded true, .substateReport, .pump b])
  else s.idle

/-- A spinning-up disk reports ready (R122); a probe goes on to read the capacity (R116). In DEEP nothing is probed or issued
(R124). -/
def spinUpReady (b : BayNo) (s : State) : Work :=
  let x := s.bays[b]
  if s.inDeep || x.spin.isNone || x.offSince.isSome then s.idle
  else if x.state = .member then
    (s.updBay b fun x => { x with substate := some .active, spin := none }, [.substateReport, .pump b])
  else if x.probe = some .spin then
    (((s.updBay b fun x => { x with spin := none, probe := some .capacity }).launch b .capacityRead), [])
  else s.idle

/-- 30 s pass from the start of a spin-up attempt: a power cycle, or at attempt 2 failure (R116, R122); no timer runs in
DEEP (R124). -/
def spinUpTimeout (b : BayNo) (s : State) : Work :=
  let x := s.bays[b]
  match x.spin with
  | none => s.idle
  | some a =>
    if s.inDeep || x.offSince.isSome || s.now < a.start + Config.spinUpTime then s.idle
    else if a.attempt = 1 then (s.updBay b fun x => { x with power := false, offSince := some s.now }, [])
    else if x.state = .member then (s, [.declareFailed b false])
    else (s, [.probeFailed b])

/-- 1 s after a bay's power was cycled off it is switched on: attempt 2 of a spin-up begins (R122); after a WARM reset a
present disk is spun up (R186, R187); no timer runs in DEEP (R124). -/
def powerCycleOn (b : BayNo) (s : State) : Work :=
  let x := s.bays[b]
  match x.offSince with
  | none => s.idle
  | some off =>
    if s.inDeep || s.now < off + Config.powerOffTime then s.idle
    else
      let s := s.updBay b fun x => { x with power := true, offSince := none }
      match x.spin with
      | some _ => (s.updBay b fun x => { x with spin := some { attempt := 2, start := s.now } }, [])
      | none =>
        if x.probe = some .power then
          if x.present then (s.updBay b fun x => { x with probe := some .spin, spin := some { attempt := 1, start := s.now } }, [])
          else (s.updBay b fun x => { x with probe := none }, [.judgeProbes])
        else s.idle

/-! ## Probing -/

/-- A disk in an EMPTY bay is probed: power on, then spin-up (R116). -/
def startProbe (b : BayNo) (s : State) : Work :=
  (s.updBay b fun x =>
    { x with power := true, offSince := none, probe := some .spin, spin := some { attempt := 1, start := s.now } }, [])

/-- The capacity read of a probe ends; the label is read next (R116). It is none of the six kinds of R119, so its end is not
reported to the Power Unit (assumption log 37). In DEEP nothing is probed (R124). -/
def capacityReadEnd (b : BayNo) (attempt capacity : Nat) (s : State) : Work :=
  if !s.inDeep && s.bays[b].probe = some .capacity && s.reported? b attempt = some .capacityRead then
    ((s.updBay b fun x => { x with capacity := some capacity, probe := some .label }).launch b .labelRead, [])
  else s.idle

/-- The state the table of R115 gives a probed disk against the member table. -/
def State.classOf (s : State) (l : LabelRead) : BayState :=
  match l with
  | .blank => .blank
  | .bad => .foreign
  | .good l =>
    if l.boxTag ≠ s.loader.image.boxTag || l.storeId ≠ s.journal.storeId then .foreign
    else match s.condOf l.own with
      | some .failed => .stale
      | _ => .foreign

/-- A probed disk is classified and spun down (R115, R116). -/
def classify (b : BayNo) (s : State) : Work :=
  match s.bays[b].label with
  | none => s.idle
  | some l =>
    ((s.updBay b fun x => { x with state := s.classOf l, probe := none }).launch b .spinDown, [.judgeRebuild])

/-- A LABEL command ends done: a probe's read, or a round's write (R116, R117, R187, R188); its end is reported to the Power
Unit like every other (R119). In DEEP nothing is probed (R124). -/
def labelDone (b : BayNo) (attempt : Nat) (data : List Byte) (s : State) : Work :=
  match s.reported? b attempt with
  | some .labelRead =>
    if s.inDeep then s.idle
    else
      let s := (s.landFlight b).updBay b fun x => { x with label := some (readLabel (padTo Config.blockBytes data)) }
      if s.power.state = .starting then (s.updBay b fun x => { x with probe := none }, [.judgeProbes, .endWork, .commandEnded true])
      else (s, [.classify b, .endWork, .commandEnded true])
  | some (.labelWrite _) => (s.landFlight b, doneTasks b ++ [.judgeFormation])
  | _ => s.idle

/-- A probe's spin-up or a probe's command has failed twice (R116, R118); the failed end is reported (R119, R174). -/
def probeFailed (b : BayNo) (s : State) : Work :=
  (s.updBay b fun x => { x with
      state := .foreign, faulted := true, probe := none, flight := none, queue := [], spin := none, offSince := none
      power := true },
   (if s.power.state = .starting then [.judgeProbes] else [.judgeRebuild]) ++ [.endWork, .commandEnded false])

/-! ## Presence -/

/-- What entry to DEEP leaves of a port outside the store: the probe and the command in flight are given up, no timer runs,
and the power enable is on (R124, assumption log 37). -/
def Bay.deep (x : Bay) : Bay :=
  if x.state = .member then x
  else { x with flight := none, queue := [], spin := none, probe := none, offSince := none, power := true }

/-- A present disk that no probe has classified. -/
def Bay.unprobed (x : Bay) : Bool := x.present && x.state = .empty && x.probe.isNone

/-- A disk becomes present (R116, R121): latched in DEEP, left unprobed while STARTING, else probed. -/
def diskInserted (b : BayNo) (same : Bool) (s : State) : Work :=
  if s.bays[b].present then s.idle
  else
    let s := s.updBay b fun x => { x with present := true }
    if s.power.state = .deep then
      (s.updBay b fun x => { x with latch := some (match x.latch with
        | none => { was := false, other := true }
        | some l => { l with other := !same }) }, [])
    else if s.power.state = .starting then s.idle
    else (s, [.startProbe b])

/-- What the removal of a disk does, by the bay state (R121). -/
def removeDisk (b : BayNo) (s : State) : Work :=
  let x := s.bays[b]
  match x.state with
  | .member => (s, [.declareFailed b true])
  | .empty => (s.updBay b Bay.emptied, if x.probe.isSome && s.power.state = .starting then [.judgeProbes] else [])
  | _ => (s.updBay b Bay.emptied, [.judgeRebuild])

/-- A disk is removed (R121): latched in DEEP, else taken at once. -/
def diskRemoved (b : BayNo) (s : State) : Work :=
  if !s.bays[b].present then s.idle
  else
    let s := s.updBay b fun x => { x with present := false }
    if s.power.state = .deep then
      (s.updBay b fun x => { x with latch := some (x.latch.getD { was := true, other := false }) }, [])
    else removeDisk b s

/-- A latched presence change is taken at the exit from DEEP: a removal, an insertion, or one after the other; a disk put
back is not seen (R116, R121). A disk whose probe the entry to DEEP gave up is probed anew (assumption log 37). -/
def takeLatch (b : BayNo) (s : State) : Work :=
  let x := s.bays[b]
  let t := s.updBay b fun x => { x with latch := none }
  if x.latch.any fun l => l.was && (!x.present || l.other) then
    let w := removeDisk b t
    (w.1, w.2 ++ (if x.present then [.reinsert b] else []))
  else (t, if x.unprobed then [.startProbe b] else [])

/-- The disk found after a latched removal is probed (R121). -/
def reinsert (b : BayNo) (s : State) : Work := (s.updBay b fun x => { x with present := true }, [.startProbe b])

end Sys2Proof.Machine
end

