-- ==== Sys2Proof/Machine/Journal.lean ====
section
/-! DEFINITION. Machine/Journal.lean: the journal buffer (section 5.4) and the Journal Unit (Chapter 11): appending, blocks,
checkpoints. -/

namespace Sys2Proof.Machine

/-! ## Appending -/

/-- The open block, if any (R88). -/
def State.openBlock (s : State) : Option Block := s.buf.blocks.find? fun b => !b.closed

/-- A record fits in the open block, or a block place is free (R88, R89). -/
def State.roomFor (s : State) (r : Record) : Bool :=
  s.buf.blocks.length < Config.journalPlaces || s.openBlock.any fun b => b.used + r.size ≤ Config.blockRecordBytes

/-- A COUNTERS record carries the counters as they stand when it is appended (R40, R57). -/
def State.freshen (s : State) (r : Record) : Record :=
  match r with
  | .counters _ _ _ => .counters s.tables.counter s.link.tagCounter s.ingest.counter
  | _ => r

/-- The record has entered at a position: the newest position, and the tables as replay builds them (R88, R184). -/
def State.entered (s : State) (r : Record) (p : Pos) : State :=
  { s with journal.lastPos := p, journal.tables := s.journal.tables.apply r }

/-- The members a closing block is written to: every one that is not FAILED, none while the store is BROKEN (R182, R183). -/
def State.writeSet (s : State) : List Nat := if s.broken then [] else s.liveMembers

/-- The open block is closed with its write set (R181, R182). -/
def State.sealBlock (s : State) : State :=
  let ms := s.writeSet
  { s with buf.blocks := s.buf.blocks.map fun b => if b.closed then b else { b with closed := true, pending := ms } }

/-- What follows the closing of a block (R182). -/
def sealTasks : List Task := [.offerBlocks, .judgeBlocks]

/-- The record opens the next block, which takes the next sequence; the ring is judged (R179, R184). The sequence goes on past 64
bits, of which a block holds the low 64 (DESIGN CHOICE, assumption log 41). -/
def State.openNew (s : State) (r : Record) (ts : List Task) : Work :=
  let n := s.journal.nextSeq
  let b : Block := { seq := n, records := [r], closed := false, opened := s.now, pending := [], offered := false }
  let s := { s with buf.blocks := s.buf.blocks ++ [b], journal.nextSeq := n + 1 }
  ((s.entered r (n, 0)).issue .journal r.size, ts ++ [.journalDemand, .startCheckpoint])

/-- A record enters the journal buffer: the open block, or the next block (R88, R179). -/
def State.enter (s : State) (record : Record) : Work :=
  let r := s.freshen record
  match s.openBlock with
  | some b =>
    if b.used + r.size ≤ Config.blockRecordBytes then
      let s := { s with buf.blocks := s.buf.blocks.map fun (d : Block) => if d.closed then d else { d with records := d.records ++ [r] } }
      ((s.entered r (b.seq, b.records.length)).issue .journal r.size, [])
    else s.sealBlock.openNew r sealTasks
  | none => s.openNew r []

/-- Tasks up to a mark, and those from it on. -/
def splitWork (stop : Task → Bool) (ts : List Task) : List Task × List Task := ts.span fun t => !stop t

/-- The work ends at a record that waits; what follows the end of the work goes on behind that end. -/
def afterEnd (ts : List Task) : List Task → List Task
  | [] => ts
  | e :: rest => e :: ts ++ rest

/-- A record joins the append wait list with the tasks of its work; the works behind it go on (R89). -/
def State.pause (s : State) (r : Record) (rest : List Task) : Work :=
  let parts := splitWork (fun t => if s.buf.resuming then t = .endResume else t = .endWork) rest
  let p : Paused := { record := r, rest := parts.1 }
  ({ s with buf.appendWait := if s.buf.resuming then p :: s.buf.appendWait else s.buf.appendWait ++ [p] }, parts.2)

/-- A record is appended, with the tasks behind it. A full journal buffer pauses the work at that record; other works go on
(R88, R89). An open block in which the record does not fit is closed then (R181). While the Journal Unit has no store nothing
is appended (R192). -/
def State.append (s : State) (r : Record) (rest : List Task) : Work :=
  if !s.journal.set then (s, rest)
  else if !s.roomFor r then
    let w := (if s.openBlock.isSome then s.sealBlock else s).pause r rest
    (w.1, if s.openBlock.isSome then afterEnd sealTasks w.2 else w.2)
  else if s.buf.appendWait.isEmpty || s.buf.resuming then
    let w := s.enter r
    (w.1, w.2 ++ rest)
  else s.pause r rest

/-- The oldest paused work goes on when its record fits (R89). -/
def resumeWork (s : State) : Work :=
  match s.buf.appendWait with
  | [] => s.idle
  | p :: ps =>
    if s.buf.resuming || !s.roomFor p.record then s.idle
    else
      let w := ({ s with buf.appendWait := ps, buf.resuming := true } : State).enter p.record
      (w.1, w.2 ++ p.rest ++ [.endResume, .resume])

/-- The resumed work has run. -/
def endResume (s : State) : Work := ({ s with buf.resuming := false }, [])

/-! ## Blocks -/

/-- The open block is closed, unless it holds no record (R181). -/
def closeBlock (s : State) : Work :=
  if s.openBlock.any fun b => !b.records.isEmpty then (s.sealBlock, sealTasks) else s.idle

/-- 200 ms pass from the entry of the open block's first record (R181). -/
def blockExpiry (s : State) : Work :=
  if s.openBlock.any fun b => b.opened + Config.blockTime ≤ s.now then (s, [.closeBlock]) else s.idle

/-- The ring position of a block (R179). -/
def ringAddr (seq : Nat) : Nat := Config.ringBase + seq % Config.ringBlocks * Config.blockBytes

/-- A closed block that is due to be offered: the ring slot it takes is not needed by replay (R182). -/
def State.dueBlock (s : State) (b : Block) : Bool :=
  b.closed && !b.offered && b.seq < s.journal.ringStart + Config.ringBlocks

/-- The WRITE-JOURNAL offers of a block (R182). -/
def State.blockOffers (s : State) (b : Block) : List Task :=
  b.pending.filterMap fun m =>
    (s.bayOf m).map fun y => .offer y .journal (.writeJournal (ringAddr b.seq) Config.blockBytes (.block b.seq m))

/-- Closed blocks are offered in sequence order (R182); none while the store is BROKEN (R183). -/
def offerBlocks (s : State) : Work :=
  if s.broken then s.idle
  else
    let due := s.buf.blocks.filter s.dueBlock
    ({ s with buf.blocks := s.buf.blocks.map fun b => if s.dueBlock b then { b with offered := true } else b },
     due.flatMap s.blockOffers)

/-- Blocks are reported written in sequence order: the oldest, when closed with no member pending (R182). -/
def judgeBlocks (s : State) : Work :=
  match s.buf.blocks with
  | [] => s.idle
  | b :: bs =>
    if b.closed && b.pending.isEmpty then
      ({ s with buf.blocks := bs, journal.written := b.seq },
       [.endWork, .resume, .reported, .endWork, .journalDemand, .advanceCheckpoint, .judgeBlocks])
    else s.idle

/-- A block has been reported written: closing runs, WRITING stripes and releasing stripes are judged (R182), the runs in the
order of the run table and the WRITING stripes in the order in which they became WRITING and the RELEASING stripes in rising number
(DESIGN CHOICE, assumption log 38). -/
def reported (s : State) : Work :=
  (s, (s.ingest.runs.filter (·.closing)).map (fun r => Task.judgeClose r.id) ++
      s.store.writing.flatMap (fun n => [Task.judgeStored n, .endWork]) ++
      (s.store.table.filter fun p => p.2.state = .releasing).map fun p => Task.judgeStripe p.1)

/-- The journal high-water demand (R88). -/
def journalDemand (s : State) : Work :=
  (s, if Config.journalHigh ≤ s.buf.blocks.length then [.raise .journalHigh] else [.lower .journalHigh])

/-- A member's write of a block has ended (R182). -/
def State.blockEnded (s : State) (seq m : Nat) : State :=
  { s with buf.blocks := s.buf.blocks.map fun b => if b.seq = seq then { b with pending := b.pending.erase m } else b }

/-- A failed member leaves the write sets of the checkpoint in progress and of blocks not yet offered (R182, R185). -/
def memberLeft (m : Nat) (s : State) : Work :=
  ({ s with
      buf.blocks := s.buf.blocks.map fun (b : Block) => if b.offered then b else { b with pending := b.pending.erase m }
      journal.checkpoint := s.journal.checkpoint.map fun c => { c with members := c.members.filter fun x => x.1 ≠ m } },
   [.judgeBlocks, .advanceCheckpoint])

/-! ## Checkpoints -/

/-- First byte of the area of a checkpoint number: A when odd, B when even (R179, R184). -/
def areaOf (c : Nat) : Nat := if c % 2 = 1 then Config.areaA else Config.areaB

/-- Pieces of an image (R185). -/
def pieceCount (c : Checkpoint) : Nat := (c.image.length + Config.mib - 1) / Config.mib

/-- A checkpoint is due (R184). -/
def State.checkpointDue (s : State) : Bool :=
  s.journal.set && s.journal.checkpoint.isNone && (s.store.cond = some .whole || s.store.cond = some .degraded) &&
    (s.journal.wanted || s.journal.ringStart + Config.ringHigh < s.journal.nextSeq)

/-- A checkpoint starts: the open block is closed, and the image is taken as it stands (R184). Its number goes on past
4,294,967,295, and its header holds the low 32 bits (DESIGN CHOICE, assumption log 41). -/
def startCheckpoint (s : State) : Work :=
  if s.checkpointDue then
    let c : Checkpoint := { number := s.journal.lastCheckpoint + 1, start := s.journal.nextSeq, image := s.journal.tables.image,
                            writing := false, members := s.liveMembers.map fun m => (m, .piece 0) }
    (State.issue { s with journal.checkpoint := some c, journal.wanted := false } .journal c.image.length,
     [.closeBlock, .advanceCheckpoint])
  else s.idle

/-- Set the mark of a member in the checkpoint in progress. -/
def State.markMember (s : State) (m : Nat) (k : PieceMark) : State :=
  { s with journal.checkpoint := s.journal.checkpoint.map fun c =>
      { c with members := c.members.map fun x => if x.1 = m then (m, k) else x } }

/-- The header of a checkpoint (R185). -/
def State.headerOf (s : State) (c : Checkpoint) : Header where
  storeId := s.journal.storeId
  number := c.number
  start := c.start
  length := c.image.length
  check := bodyCheck c.image

/-- A member's first piece of the image is offered, and each further one joins the queue in the place that the issue of the one
before it has freed (R185); the last one takes only the bytes that are left, and an image
longer than its area is written on past it (DESIGN CHOICE, assumption log 44). -/
def offerPiece (m k : Nat) (s : State) : Work :=
  match s.journal.checkpoint, s.bayOf m with
  | some c, some b =>
    if k < pieceCount c && c.members.any (fun x => x.1 = m) then
      let s := s.markMember m (.piece k)
      let cmd : DiskCmd := .writeJournal (areaOf c.number + Config.blockBytes + k * Config.mib)
        (min Config.mib (c.image.length - k * Config.mib)) (.piece c.number m k)
      if k = 0 then (s, [.offer b .journal cmd]) else (s.updBay b fun x => { x with queue := x.queue ++ [cmd] }, [])
    else s.idle
  | _, _ => s.idle

/-- The header writes of a checkpoint (R185). -/
def State.headerOffers (s : State) (c : Checkpoint) : List Task :=
  c.members.filterMap fun x =>
    (s.bayOf x.1).map fun b => .offer b .journal (.writeJournal (areaOf c.number) Config.blockBytes (.header c.number x.1))

/-- A checkpoint goes on: its pieces once every earlier block is written, its header once the pieces have ended, its
completion once every header is written (R185). -/
def advanceCheckpoint (s : State) : Work :=
  match s.journal.checkpoint with
  | none => s.idle
  | some c =>
    if !c.writing then
      if c.start ≤ s.journal.written + 1 then
        ({ s with journal.checkpoint := some { c with writing := true } }, c.members.map fun x => .offerPiece x.1 0)
      else s.idle
    else if c.members.all fun x => x.2 = .headerDone then
      ({ s with
          journal.lastCheckpoint := c.number, journal.ringStart := c.start, journal.torn := false, journal.checkpoint := none },
       [.offerBlocks, .startCheckpoint])
    else if c.members.all fun x => x.2 = .piecesDone then
      (State.issue { s with journal.checkpoint := some { c with members := c.members.map fun x => (x.1, .headerPending) } } .journal
         Config.blockBytes,
       s.headerOffers c)
    else s.idle

/-- A member leaves the write set of the checkpoint in progress (R185). -/
def State.leaveCheckpoint (s : State) (m : Nat) : State :=
  { s with journal.checkpoint := s.journal.checkpoint.map fun c => { c with members := c.members.filter fun x => x.1 ≠ m } }

/-- The checkpoint in progress has this number. -/
def State.inCheckpoint (s : State) (number : Nat) : Bool := s.journal.checkpoint.any fun c => c.number = number

/-- A WRITE-JOURNAL has ended (R182, R185). -/
def journalEnded (u : JournalUse) (done : Bool) (s : State) : Work :=
  match u with
  | .block seq m => (s.blockEnded seq m, [.judgeBlocks])
  | .piece number m k =>
    if !s.inCheckpoint number then s.idle
    else if !done then (s.leaveCheckpoint m, [.advanceCheckpoint])
    else if s.journal.checkpoint.any fun c => k + 1 = pieceCount c then (s.markMember m .piecesDone, [.advanceCheckpoint])
    else s.idle
  | .header number m =>
    if !s.inCheckpoint number then s.idle
    else (if done then s.markMember m .headerDone else s.leaveCheckpoint m, [.advanceCheckpoint])
  | .zeros | .formImage | .formHeader => s.idle

/-- The image of checkpoint 1, which formation writes: empty tables with every counter at 1 (R188). -/
def formImage : List Byte := Loaded.empty.image

/-- The header of checkpoint 1, which formation writes for a new store: area A, start sequence 1 (R185, R188). -/
def formHeader (storeId : Nat) : Header where
  storeId := storeId
  number := 1
  start := 1
  length := formImage.length
  check := bodyCheck formImage

/-- What a WRITE-JOURNAL of a length writes (R182, R185, R188): a block, a piece of the image of the checkpoint in progress, a
header, or zeros. A second attempt writes zeros where the block's place has been freed or the checkpoint abandoned since (DESIGN
CHOICE, assumption log 27). -/
def State.journalData (s : State) (length : Nat) (u : JournalUse) : List Byte :=
  match u with
  | .block seq _ =>
    padTo length (((s.buf.blocks.find? fun b => b.seq = seq).map fun b => blockImage s.journal.storeId seq b.records).getD [])
  | .piece _ _ k => padTo length ((s.journal.checkpoint.map fun c => c.image.drop (k * Config.mib)).getD [])
  | .header _ _ => padTo length ((s.journal.checkpoint.map fun c => (s.headerOf c).bytes).getD [])
  | .zeros => padTo length []
  | .formImage => padTo length formImage
  | .formHeader => padTo length (formHeader s.journal.storeId).bytes

/-- What a WRITE-SLOT writes: its data up to the data's length, then zeros up to 1 MiB (R101, R110, R112, R119). -/
def State.slotData (s : State) (u : WriteUse) : List Byte :=
  match u with
  | .writeOut _ pages length => padTo Config.mib (s.buf.stagingMem.chunkBytes pages 0 length)
  | .rewrite id | .rebuild id => padTo Config.mib (((s.job? id).map s.resultBytes).getD [])

/-- The bytes a command writes to its disk, as the state stands (R119); empty for a command that writes none. -/
def State.writeData (s : State) (c : DiskCmd) : List Byte :=
  match c with
  | .writeSlot _ u => s.slotData u
  | .writeJournal _ length u => s.journalData length u
  | .labelWrite l => l.bytes
  | .readSlot _ _ _ | .readJournal _ _ _ | .spinDown | .labelRead | .capacityRead => []

/-- A WRITE-JOURNAL command. -/
def DiskCmd.isJournalWrite : DiskCmd → Bool
  | .writeJournal _ _ _ => true
  | _ => false

/-- The store has turned BROKEN: waiting journal writes are withdrawn, the checkpoint is abandoned, and closed blocks are
reported written (R183). -/
def stopJournal (s : State) : Work :=
  let s := s.withdraw DiskCmd.isJournalWrite
  ({ s with
      journal.checkpoint := none
      buf.blocks := s.buf.blocks.map fun (b : Block) => { b with pending := [] } },
   bayNos.map Task.placeFreed ++ [.judgeBlocks])

end Sys2Proof.Machine
end

