-- ==== Sys2Proof/Machine/Power.lean ====
section
/-! DEFINITION. Machine/Power.lean: the Power Unit (Chapter 10). -/

namespace Sys2Proof.Machine

/-! ## Demands -/

/-- A held internal demand is raised; none is while the box is DEEP (R168). -/
def raiseDemand (d : Demand) (s : State) : Work :=
  if s.inDeep || s.power.demands.contains d then s.idle
  else
    let s := { s with power.demands := s.power.demands ++ [d] }
    match s.power.state with
    | .awake => ({ s with power.diskIdle := none }, [])
    | .quiet => (s, [.orderSpinUp])
    | _ => s.idle

/-- A held internal demand is released (R167, R168). -/
def lowerDemand (d : Demand) (s : State) : Work :=
  if s.power.demands.contains d then
    let s := { s with power.demands := s.power.demands.erase d }
    if s.power.state = .awake && s.power.demands.isEmpty then ({ s with power.diskIdle := some s.diskIdleEnd }, []) else s.idle
  else s.idle

/-- The disk idle timer restarts if it is running (R167). -/
def State.restartDiskIdle (s : State) : State :=
  if s.power.diskIdle.isSome then { s with power.diskIdle := some s.diskIdleEnd } else s

/-- A momentary demand acts when raised (R168). -/
def momentary (s : State) : Work :=
  match s.power.state with
  | .awake => (s.restartDiskIdle, [])
  | .quiet => (s, [.orderSpinUp])
  | _ => s.idle

/-- A FLUSH demand closes a GATHERING stripe and acts as a momentary demand (R168). -/
def flush (s : State) : Work := (s, [.closeStripe, .momentary])

/-- The qualifier is cleared and its window closed (R169, R171). -/
def State.clearQualifier (s : State) : State := { s with power.count := 0, power.window := none }

/-- Spin-up is ordered (R169). -/
def orderSpinUp (s : State) : Work :=
  if s.power.state = .quiet then (s.clearQualifier, s.liveBays.map Task.spinUp ++ [.enterWaking]) else s.idle

/-- Every member that is not FAILED is ACTIVE (R169). -/
def State.allActive (s : State) : Bool := s.liveBays.all fun b => s.bays[b].substate = some .active

/-- After a spin-up order: straight to AWAKE, or WAKING (R169). -/
def enterWaking (s : State) : Work :=
  if s.power.state = .quiet then (if s.allActive then (s, [.enterAwake]) else (s.enterPower .waking, [])) else s.idle

/-- In WAKING the condition for AWAKE is judged again (R169). -/
def judgeAwake (s : State) : Work :=
  if s.power.state = .waking && s.allActive then (s, [.enterAwake]) else s.idle

/-- The box enters AWAKE (R167, R169). -/
def enterAwake (s : State) : Work :=
  let s := s.clearQualifier.enterPower .awake
  ({ s with power.diskIdle := if s.power.demands.isEmpty then some s.diskIdleEnd else none }, [])

/-- A Disk Port reports a power substate or a bay state (R169, R174). -/
def substateReport (s : State) : Work := (s, [.judgeAwake, .deepCheck])

/-- A Disk Port reports the end of a command (R167, R174). -/
def commandEnded (done : Bool) (s : State) : Work := (if done then s.restartDiskIdle else s, [.deepCheck])

/-- The disk idle timer expires: the box enters QUIET (R167); a bay that a FAILED member keeps is not spun down (DESIGN CHOICE,
assumption log 26). -/
def diskIdleExpiry (s : State) : Work :=
  if s.power.state = .awake && s.due s.power.diskIdle then
    let s := ({ s with power.diskIdle := none } : State).enterPower .quiet
    (s, ((s.liveBays.filter fun b => s.bays[b].substate ≠ some .standby).map fun b => Task.offer b .power .spinDown) ++ [.deepCheck])
  else s.idle

/-! ## The wake qualifier -/

/-- A peer demand from a fill (R170, R171). -/
def peerDemand (n : Nat) (s : State) : Work :=
  if s.power.state ≠ .quiet then s.idle
  else if ((s.peer n).bind (·.lastCounted)).any fun c => s.now < c + s.loader.image.qualifierSpacing then s.idle
  else
    let s := s.updPeer n fun p => { p with lastCounted := some s.now }
    let s := { s with
      power.window := some (s.power.window.getD (s.now + s.loader.image.qualifierWindow * 1000))
      power.count := s.power.count + 1 }
    (s, if s.loader.image.qualifierCount ≤ s.power.count then [.orderSpinUp] else [])

/-- The qualifier window expires (R171). -/
def State.qualifierExpiry (s : State) : State :=
  if s.power.state = .quiet && s.due s.power.window then s.clearQualifier else s

/-- A WAKE (R172). -/
def wake (m : Msg) (s : State) : Work :=
  match s.power.state with
  | .quiet => (s, [.orderSpinUp, .answerWake m.src m.seq])
  | .awake => (s.restartDiskIdle, [.answerWake m.src m.seq])
  | _ => (s, [.answerWake m.src m.seq])

/-- The REPLY to a WAKE carries the power state after it (R172). -/
def answerWake (dest : Addr) (seq : Nat) (s : State) : Work :=
  (s.send (.hbx dest kindReply (s.tagOf dest.mac) seq stOk [byteOf Kind.wake.code, byteOf s.power.state.code]), [])

/-! ## DEEP -/

/-- The DEEP idle timer expires (R173). -/
def deepIdleExpiry (s : State) : Work :=
  if s.due s.power.deepIdle then ({ s with power.deepIdle := none, power.deepDue := true }, [.deepCheck]) else s.idle

/-- The journal buffer is empty (R88). -/
def State.journalEmpty (s : State) : Bool := s.buf.blocks.all fun b => !b.closed && b.records.isEmpty

/-- PARITY pages other than the reserve (R78). -/
def State.parityInUse (s : State) : Nat := s.pagesIn .parity - (s.buf.reserve.getD []).length

/-- The work part of the DEEP check (R174). A check or a reconstruction of an unpinned copy does not hold DEEP back (DESIGN CHOICE,
assumption log 46). -/
def State.workPart (s : State) : Bool :=
  s.pagesIn .reserved = 0 && s.pagesIn .staged = 0 && s.parityInUse = 0 && s.ingest.runs.isEmpty &&
    s.slots.toList.all (fun x => x.state = .idle) && s.journalEmpty &&
    s.liveBays.all fun b => s.bays[b].substate ≠ some .standby || s.bays[b].queue.isEmpty

/-- The disk part of the DEEP check (R174); a bay that a FAILED member keeps is not asked (DESIGN CHOICE, assumption log 26). -/
def State.diskPart (s : State) : Bool :=
  s.liveBays.all fun b => s.bays[b].substate = some .standby && s.bays[b].queue.isEmpty

/-- The DEEP check: FLUSH when the work part fails, DEEP when both parts hold, else the box waits (R174). -/
def deepCheck (s : State) : Work :=
  if s.power.state = .quiet && s.power.deepDue then
    if !s.workPart then (s, [.flush]) else if s.diskPart then (s, [.enterDeep]) else s.idle
  else s.idle

/-- The box enters DEEP (R175); what a port was doing for a disk outside the store is given up (R124, assumption log 37).
Segments that a send queue still holds stay there and are sent (DESIGN CHOICE, assumption log 43). A check or a reconstruction of
an unpinned copy is kept and goes on at the exit (DESIGN CHOICE, assumption log 46). -/
def enterDeep (s : State) : Work :=
  let s := (s.enterPower .deep).closeWindow.clearQualifier
  ({ s.giveUpReserve with
      bays := s.bays.map Bay.deep, power.deepDue := false, power.deepIdle := none, power.deepSince := some s.now }, [])

/-- The frozen timers resume with the time they had left: every resume record's making moves by the time in DEEP (R140,
R176). -/
def resumeTimers (s : State) : Work :=
  let d := s.now - s.power.deepSince.getD s.now
  let slots := s.slots.map fun x => { x with resume := x.resume.map fun r => { r with made := r.made + d } }
  ({ s with slots := slots, power.deepSince := none }, [])

/-- The box leaves DEEP (R176). -/
def exitDeep (cause : Cause) (s : State) : Work :=
  if s.power.state ≠ .deep then s.idle
  else
    ((s.enterPower .quiet).grantTurn.restartDeepIdle,
     [Task.takeReserve] ++ bayNos.map Task.takeLatch ++ [.judgeRebuild, .resumeTimers] ++
       (match cause with
        | .message => []
        | .wake => [.orderSpinUp]
        | .press => [.momentary]))

/-! ## The buttons -/

/-- A button line. -/
def Power.line (p : Power) : Button → Line
  | .pairing => p.pairing
  | .power => p.power

/-- Change a button line. -/
def State.setLine (s : State) (b : Button) (l : Line) : State :=
  match b with
  | .pairing => { s with power.pairing := l }
  | .power => { s with power.power := l }

/-- A button line changes its level: its debounce starts anew, unless the level is that of the reading (R177). -/
def State.lineChange (s : State) (b : Button) (pressed : Bool) : State :=
  let l := s.power.line b
  if l.level = pressed then s
  else s.setLine b { l with level := pressed, due := if l.reading = pressed then none else some (s.now + Config.debounceTime) }

/-- A press of the power button (R178). -/
def pressPower (s : State) : Work :=
  match s.power.state with
  | .starting => s.idle
  | .awake => (s.restartDiskIdle.restartDeepIdle, [])
  | .waking => (s.restartDeepIdle, [])
  | .quiet => (s.restartDeepIdle, [.momentary])
  | .deep => (s, [.exitDeep .press])

/-- A line has stayed at its level for 50 ms: the reading changes, and a change to pressed is a press (R177). -/
def debounceExpiry (b : Button) (s : State) : Work :=
  let l := s.power.line b
  if s.due l.due then
    let s := s.setLine b { l with reading := l.level, due := none }
    if l.level && !l.reading then
      match b with
      | .pairing => (s.pressPairing, [])
      | .power => pressPower s
    else s.idle
  else s.idle

end Sys2Proof.Machine
end

