-- ==== Sys2Proof/Machine/Startup.lean ====
section
/-! DEFINITION. Machine/Startup.lean: the resets and the Start-up Loader: configuration, probing, formation, checkpoint
load, replay, reconciliation, and a store found ABSENT (sections 11.5, 11.6 and Chapter 12). -/

namespace Sys2Proof.Machine

/-! ## Resets and configuration -/

/-- Power is applied: the straps are sampled, every table is lost, and the boot flash is read if it is fitted (R186, R193,
R194). -/
def coldReset (straps : Straps) (present : Vector Bool 4) (s : State) : Work :=
  let t := s.cleared (present.map Bay.reset)
    { straps := straps, image := budget straps ConfigImage.defaults, settled := false, phase := .config, cold := true }
  (t, if straps.flashPresent then [] else [.settle])

/-- A bay at a WARM reset: everything is lost, and its power is off for 1 s (R124, R186). -/
def Bay.warm (x : Bay) (now : Nat) : Bay :=
  { Bay.reset x.present with power := false, offSince := some now, probe := some .power }

/-- The reset line: straps and configuration image are kept, and a settled configuration stays so (R186, R194). -/
def warmReset (s : State) : Work :=
  let t := s.cleared (s.bays.map fun x => x.warm s.now) { s.loader with phase := .config, cold := false }
  (t, if t.loader.settled then [.settle] else [])

/-- The boot flash has given the record, or has not answered (R194). -/
def configReadEnd (answer : Option (List Byte)) (s : State) : Work :=
  if s.loader.settled || !s.loader.straps.flashPresent then s.idle
  else ({ s with loader.image := budget s.loader.straps (configOf answer) }, [.settle])

/-- The configuration is settled: frames are admitted, the ANNOUNCE of STARTING is queued, and probing goes on (R18, R194). The
announce timer of STARTING starts here too, and not at the reset (DESIGN CHOICE, assumption log 45). -/
def settle (s : State) : Work :=
  (({ s with loader.settled := true, loader.phase := .probing } : State).enterPower .starting,
   if s.loader.cold then [.startProbes] else [.judgeProbes])

/-- At COLD every bay is switched on and every present disk probed, all at once (R187). -/
def startProbes (s : State) : Work :=
  ({ s with bays := s.bays.map fun x => { x with power := true } },
   (bayNos.filter fun b => s.bays[b].present).map Task.startProbe ++ [.judgeProbes])

/-- Start-up goes on when every probe has ended (R187). -/
def judgeProbes (s : State) : Work :=
  if s.loader.phase = .probing && s.bays.toList.all fun x => x.probe.isNone then (s, [.assignMembers]) else s.idle

/-! ## Labels read -/

/-- The label of highest generation, of equal ones that in the lowest bay. -/
def bestLabel : List (BayNo × Label) → Option (BayNo × Label)
  | [] => none
  | x :: xs =>
    match bestLabel xs with
    | none => some x
    | some y => if x.2.generation < y.2.generation then some y else some x

/-- The bays whose valid label carries the configured box tag and satisfies a test. -/
def State.labelled (s : State) (p : Label → Bool) : List (BayNo × Label) :=
  bayNos.filterMap fun b => (s.ownLabel b).bind fun l => if p l then some (b, l) else none

/-- The trusted label (R187). -/
def State.trusted (s : State) : Option Label := if s.clearing then none else (bestLabel (s.labelled fun _ => true)).map (·.2)

/-- The member entry of an index by the trusted label (R187). -/
def State.trustedMember (s : State) (l : Label) (m : Nat) : Member :=
  let cond := MemberCond.ofCode (l.conds.getD m 1)
  if cond = .failed then { bay := none, cond := .failed }
  else match bestLabel (s.labelled fun k => k.storeId = l.storeId && k.own = m) with
    | none => { bay := none, cond := .failed }
    | some x => { bay := some x.1, cond := cond }

/-- The member table by the trusted label (R187). -/
def State.trustedMembers (s : State) (l : Label) : List Member :=
  (List.range (min 4 l.members)).map (s.trustedMember l)

/-- The member index the table gives a bay. -/
def State.memberOfBay (s : State) (b : BayNo) : Option Nat := s.store.members.findIdx? fun m => m.bay = some b

/-- A disk was probed without fault. -/
def Bay.probedOk (x : Bay) : Bool := x.label.isSome && !x.faulted

/-- A probed bay becomes MEMBER, ACTIVE from its probe, or what R115 makes of it and is spun down (R187, R188). -/
def State.placeBay (s : State) (b : BayNo) : State :=
  match s.memberOfBay b with
  | some m => s.updBay b fun x => { x with state := .member, substate := some .active, member := some m, queue := [], kept := [] }
  | none =>
    if s.bays[b].probedOk then
      (s.updBay b fun x => { x with
        state := if s.countsBlank b then .blank else x.label.elim x.state s.classOf }).launch b .spinDown
    else s

/-- Every bay is placed by the member table. -/
def State.placeBays (s : State) : State := bayNos.foldl State.placeBay s

/-- The number of members that are not FAILED is at least K (R187, R189). -/
def State.enough (s : State) : Bool := s.dataSlots ≤ s.liveMembers.length

/-- The trusted label makes the member table; without one a store is formed (R187). -/
def assignMembers (s : State) : Work :=
  match s.trusted with
  | none => (s, [.formStore])
  | some l =>
    let ms := s.trustedMembers l
    let t := { s with
      store.members := ms
      store.stripeCount := l.stripes
      journal.storeId := l.storeId
      labelGen := some l.generation }
    let t := t.placeBays
    if t.enough then
      (t, (if ms.map (fun m => m.cond.code) = l.conds.take ms.length then [] else [.labelRound]) ++ [.loadMember 0])
    else (t, [.storeAbsent])

/-! ## Formation (R188) -/

/-- The BLANK disks a store is formed of. -/
def State.formBays (s : State) : List BayNo :=
  bayNos.filter fun b => s.countsBlank b && s.bays[b].probedOk &&
    s.bays[b].capacity.any fun c => Config.stripeBase + Config.mib ≤ c

/-- The store id of a new store: the lowest from 1 on that no label of the box tag carries. -/
def State.newStoreId (s : State) : Nat := 1 + lowestGap 0 (((List.range 5).filter fun n =>
  !(s.labelled fun l => l.storeId = n + 1).isEmpty))

/-- S of a new store (R94). -/
def State.newStripeCount (s : State) (bays : List BayNo) : Nat :=
  ((bays.map fun b => (s.bays[b].capacity.getD 0 - Config.stripeBase) / Config.mib).min?).getD 0

/-- The commands formation gives a member, in order (R188), the zeros of the ring in pieces of 1 MiB and the image as one
command (DESIGN CHOICE, assumption log 44); what each writes is `State.writeData`. -/
def State.formOffers (s : State) (m : Nat) (b : BayNo) : List Task :=
  let give (c : DiskCmd) : Task := .offer b .startup c
  (List.range 512).map (fun k => give (.writeJournal (Config.ringBase + k * Config.mib) Config.mib .zeros)) ++
    [give (.writeJournal Config.areaB Config.blockBytes .zeros),
     give (.writeJournal (Config.areaA + Config.blockBytes) formImage.length .formImage),
     give (.writeJournal Config.areaA Config.blockBytes .formHeader),
     give (.labelWrite (s.labelOf 1 m))]

/-- A new store is formed of every fitting BLANK disk, or none is and the store is ABSENT (R188). -/
def formStore (s : State) : Work :=
  let bays := s.formBays
  if bays.length < 2 then (s, [.storeAbsent])
  else
    let t := { s with
      store.members := bays.map fun b => { bay := some b, cond := .ok }
      store.stripeCount := s.newStripeCount bays
      journal := { Journal.reset with set := true, storeId := s.newStoreId, nextSeq := 1, ringStart := 1, lastCheckpoint := 1 }
      labelGen := some 1
      loader.phase := .forming }
    let t := t.placeBays.issueAll .journal [formImage.length, Config.blockBytes]
    (t, bays.zipIdx.flatMap fun x => t.formOffers x.2 x.1)

/-- Nothing waits at a bay or is in flight. -/
def Bay.quietQueue (x : Bay) : Bool := x.queue.isEmpty && x.kept.isEmpty && x.flight.isNone

/-- While start-up runs on its members, too few members make the store ABSENT; formation ends when every member's commands
have ended (R188, R189). -/
def judgeFormation (s : State) : Work :=
  match s.loader.phase with
  | .forming =>
    if !s.enough then (s, [.storeAbsent])
    else if s.liveBays.all fun b => s.bays[b].quietQueue then (s, [.endStartup]) else s.idle
  | .loading _ _ | .replay _ _ => if s.enough then s.idle else (s, [.storeAbsent])
  | _ => s.idle

/-! ## Checkpoint load and replay (R189, R190) -/

/-- A READ-JOURNAL of start-up is given to a member's bay. -/
def State.readFrom (s : State) (m start length : Nat) (use : LoadUse) : List Task :=
  (s.bayOf m).toList.map fun b => .offer b .journal (.readJournal start length use)

/-- The checkpoint load goes on with the OK members from an index on (R189). -/
def loadMember (m : Nat) (s : State) : Work :=
  if !s.enough then (s, [.storeAbsent])
  else match s.memberIds.find? fun k => m ≤ k && s.condOf k = some .ok with
    | none => (s, [.storeAbsent])
    | some k => ({ s with loader.phase := .loading k [] }, s.readFrom k Config.areaA Config.blockBytes .headerA)

/-- The image of the next valid header is read, or the next member is tried (R189). -/
def tryImage (s : State) : Work :=
  match s.loader.phase with
  | .loading m [] => (s, [.loadMember (m + 1)])
  | .loading m (h :: _) =>
    (s, s.readFrom m (h.1 + Config.blockBytes)
      ((h.2.length + Config.blockBytes - 1) / Config.blockBytes * Config.blockBytes) .image)
  | _ => s.idle

/-- A valid header joins those to try, the one of higher number first (R189). -/
def addHeader (base : Nat) (h : Header) : List (Nat × Header) → List (Nat × Header)
  | [] => [(base, h)]
  | x :: xs => if x.2.number < h.number then (base, h) :: x :: xs else x :: addHeader base h xs

/-- A header block read from an area (R189). -/
def State.takeHeader (s : State) (base : Nat) (data : List Byte) : State :=
  match s.loader.phase, readHeader s.journal.storeId data with
  | .loading m hs, some h => { s with loader.phase := .loading m (addHeader base h hs) }
  | _, _ => s

/-- The tables are loaded from a checkpoint, and replay begins on the same member (R189, R190). -/
def State.takeImage (s : State) (m : Nat) (h : Header) (data : List Byte) : State :=
  { s with
    journal := { s.journal with
      set := true, lastCheckpoint := h.number, ringStart := h.start, torn := false
      tables := Loaded.empty.replay (readRecords h.length (data.take h.length)) }
    loader.phase := .replay m h.start }

/-- The block at the expected sequence is read (R190). -/
def readRing (s : State) : Work :=
  match s.loader.phase with
  | .replay m e => (s, s.readFrom m (ringAddr e) Config.blockBytes .block)
  | _ => s.idle

/-- Replay stops at a block not taken (R190). -/
def State.stopReplay (s : State) (e : Nat) (torn : Bool) : State :=
  { s with journal := { s.journal with nextSeq := e, written := e - 1, torn := torn, lastPos := (e - 1, 0) } }

/-- A block read at replay is taken, or replay stops (R190). -/
def State.takeBlock (s : State) (m e : Nat) (data : List Byte) : Work :=
  match readBlock s.journal.storeId e data with
  | .taken rs =>
    ({ s with journal.tables := s.journal.tables.replay rs, loader.phase := .replay m (e + 1) }, [.readBlock])
  | .stop torn => (s.stopReplay e torn, [.endReplay])

/-- A read of start-up has failed: the next member is tried; after a failed replay read the tables are emptied and the load
begins again (R189, R190). -/
def loadFailed (s : State) : Work :=
  match s.loader.phase with
  | .loading m _ => (s, [.loadMember (m + 1)])
  | .replay _ _ => ({ s with journal := { Journal.reset with storeId := s.journal.storeId } }, [.loadMember 0])
  | _ => s.idle

/-- A READ-JOURNAL of start-up has ended (R189, R190). -/
def loadEnded (u : LoadUse) (data : Option (List Byte)) (s : State) : Work :=
  let s := s.issue .journal (data.elim 0 List.length)
  match u, data, s.loader.phase with
  | _, none, _ => loadFailed s
  | .headerA, some d, .loading m _ => (s.takeHeader Config.areaA d, s.readFrom m Config.areaB Config.blockBytes .headerB)
  | .headerB, some d, .loading _ _ => (s.takeHeader Config.areaB d, [.tryImage])
  | .image, some d, .loading m (h :: hs) =>
    if bodyCheck (d.take h.2.length) = h.2.check then (s.takeImage m h.2 d, [.readBlock])
    else ({ s with loader.phase := .loading m hs }, [.tryImage])
  | .block, some d, .replay m e => s.takeBlock m e d
  | _, _, _ => s.idle

/-- An object whose continuations do not all follow is not loaded (R55, R190). -/
def Loaded.whole (t : Loaded) : Loaded := { t with objs := t.objs.filter fun o => o.total ≤ o.names.length }

/-- The counts are checked at the end of replay (R37, R55, R190). -/
def endReplay (s : State) : Work :=
  let t := s.journal.tables.whole
  let s := { s with journal.tables := t }
  if s.loader.image.indexCapacity < t.chunks.length || s.loader.image.objectCapacity < t.objs.length then (s, [.storeAbsent])
  else ({ s with loader.phase := .reconciling }, [.reconcileObjects])

/-! ## Reconciliation (R191) -/

/-- A peer entry as it is after a reload (R10). -/
def LoadedPeer.entry (p : LoadedPeer) : Peer where
  mac := p.mac
  last := none
  tag := p.tag
  roles := p.roles
  quota := p.quota
  charged := 0
  lastRun := none
  lastCounted := none

/-- A chunk entry as it is after a reload (R37). -/
def LoadedChunk.entry (c : LoadedChunk) (refcount : Nat) : Entry where
  name := c.name
  length := c.length
  check := c.check
  state := if c.lost then .lost else .stored
  refcount := refcount
  payer := c.payer
  origin := none
  pages := []
  loc := some c.loc
  cached := false
  mark := true
  prior := none

/-- The length the journal gives a name. -/
def Loaded.lengthOf (t : Loaded) (n : Name) : Nat := ((t.chunks.find? fun c => c.name = n).map (·.length)).getD 0

/-- Albums that list an object. -/
def Loaded.albumsOf (t : Loaded) (id : Nat) : Nat := t.albums.countP fun a => a.2.entries.contains id

/-- An object record as it is after a reload, its album count set (R55, R191 step 1). -/
def Loaded.obj (t : Loaded) (o : LoadedObj) : Obj where
  id := o.id
  owner := o.owner
  state := if o.retired then .retired else .complete
  run := none
  caption := o.caption
  names := o.names
  total := (o.names.map t.lengthOf).sum
  albumCount := t.albumsOf o.id
  playCount := 0
  pending := false
  recorded := true

/-- A RETIRED object with album count 0. -/
def Obj.spent (o : Obj) : Bool := o.state = .retired && o.albumCount = 0

/-- The loaded peers, objects, albums and counters stand in the tables (R10, R40, R55, R57). -/
def State.fillTables (s : State) (t : Loaded) : State :=
  { s with
    link.peers := t.peers.foldl (fun v p => v.setIfInBounds p.slot (some p.entry)) s.link.peers
    link.tagCounter := t.tagCounter
    tables.objs := t.objs.map t.obj
    tables.counter := t.objCounter
    tables.albums := t.albums.foldl (fun v a => v.setIfInBounds a.1 (some a.2)) s.tables.albums
    ingest.counter := t.runCounter }

/-- Step 1 of R191: album counts, and the removal of RETIRED objects that no album lists, in the order in which the journal
loaded them (DESIGN CHOICE, assumption log 38). -/
def reconcileObjects (s : State) : Work :=
  let s := s.fillTables s.journal.tables
  ({ s with tables.objs := s.tables.objs.filter fun (o : Obj) => !o.spent },
   (s.tables.objs.filter Obj.spent).map (fun o => Task.append (.objectRemoved o.id)) ++ [.reconcileChunks])

/-- Occurrences of a name in the chunk lists. -/
def State.occurrences (s : State) (n : Name) : Nat := (s.tables.objs.map fun o => o.names.count n).sum

/-- Step 2 of R191: refcounts, and the freeing of entries that no list names, in the order in which the journal loaded them
(DESIGN CHOICE, assumption log 38). -/
def reconcileChunks (s : State) : Work :=
  let es := s.journal.tables.chunks.map fun c => c.entry (s.occurrences c.name)
  ({ s with index := es.filter fun e => e.refcount ≠ 0 },
   (es.filter fun e => e.refcount = 0).map (fun e => Task.append (.chunkFreed e.name)) ++ [.reconcileStripes])

/-- Step 3 of R191: the charged counts (R34). -/
def State.chargePeers (s : State) : State :=
  { s with link.peers := Vector.ofFn fun i : Fin 24 =>
      s.link.peers[i].map fun p => { p with charged := s.index.countP fun e => e.payer = some i.val } }

/-- A loaded entry's stripe is HELD with one more live entry (R191 step 4). -/
def State.holdStripe (s : State) (n : Nat) : State :=
  if (s.stripe? n).isSome then s.liveUp n
  else { s with store.table := insertStripe n { newStripe with state := .held, live := 1 } s.store.table }

/-- Steps 3 and 4 of R191. -/
def reconcileStripes (s : State) : Work :=
  (s.index.foldl (fun s e => e.loc.elim s fun l => s.holdStripe l.1) s.chargePeers, [.endStartup])

/-! ## The end of start-up -/

/-- The box passes from STARTING to AWAKE, and the DEEP idle timer starts (R166, R173). -/
def enterAwakeFirst (s : State) : Work :=
  let w := enterAwake s
  (w.1.restartDeepIdle, w.2)

/-- The disks inserted meanwhile, which are probed once start-up has ended (R116). -/
def State.lateDisks (s : State) : List BayNo :=
  bayNos.filter fun b => s.bays[b].present && s.bays[b].state = .empty && s.bays[b].probe.isNone && s.bays[b].label.isNone

/-- Start-up ends with a store: condition, restarted rebuild, reserve, AWAKE, rebuild conditions (assumption log 36; R78,
R93, R111, R113, R166, R191). -/
def endStartup (s : State) : Work :=
  let r := s.rebuildingMember
  let s := { s with store.cond := some s.tableCond, store.pointer := r.map fun _ => 0, loader.phase := .ended }
  (s, (if r.isSome then [Task.raise .rebuild] else []) ++
      [.takeReserve, .enterAwakeFirst] ++
      (if s.broken then [.haltRebuild, .storeBroken] else []) ++ [.judgeRebuild, .rebuildStep] ++
      s.lateDisks.map Task.startProbe)

/-- A disk that is still spinning after its probe: of a MEMBER bay, or not yet classified. -/
def Bay.stillSpinning (x : Bay) : Bool := x.present && x.probedOk && (x.state = .member || x.state = .empty)

/-- A bay of an ABSENT store whose label has been read: it leaves MEMBER, shows what R192 gives, and has its disk spun down
behind a command in flight, unless it has been or the port has given the disk up. -/
def State.absentBay (s : State) (b : BayNo) : State :=
  if s.bays[b].label.isSome then
    s.updBay b fun x => { x with
      state := s.absentClass b, substate := none, member := none, kept := [], spin := none, spinAgain := false
      queue := if x.stillSpinning then [.spinDown] else [] }
  else s

/-- Start-up finds the store ABSENT: no tables, no members, every disk spun down, then AWAKE (R192). The torn-tail flag stays
(R190). -/
def storeAbsent (s : State) : Work :=
  if s.loader.phase = .ended then s.idle
  else
    let s := bayNos.foldl State.absentBay s
    let s := { s with
      store := { Store.reset with cond := some .absent }
      journal := { Journal.reset with torn := s.journal.torn }
      loader.phase := .ended }
    (s, bayNos.map Task.pump ++ [.enterAwakeFirst] ++ s.lateDisks.map Task.startProbe)

end Sys2Proof.Machine
end

