-- ==== Sys2Proof/Machine/Pacing.lean ====
section
/-! DEFINITION. Machine/Pacing.lean: the pacing computation: taper check, rate update, rate actions, the STRAINED cap and
the report tracker, on the transfer and the pacer alone (sections 8.4, 8.7, 9.1, 9.2). -/

namespace Sys2Proof.Machine

/-- What the pacing computation moves: the transfer in force, its pacer, and whether its tracker is STRAINED. -/
structure Play where
  x : Transfer
  p : Pacer
  strained : Bool
  deriving DecidableEq, Repr

/-- The STRAINED cap (R154). -/
def Transfer.cap (x : Transfer) : Nat := x.floor + (x.peak - x.floor) / 4

/-- The ceiling of a rise (R133). -/
def Play.ceiling (q : Play) : Nat := if q.strained then q.x.cap else q.x.peak

/-- The pacer a start event sets by the profile (R129). -/
def startPacer (x : Transfer) : Pacer where
  rate := match x.profile with
    | .steadyPeak => x.peak
    | _ => x.floor
  phase := match x.profile with
    | .shaped => .rising
    | .steadyFloor => .floor
    | .steadyPeak => .peak
  target := .floor
  pendingPeak := none
  credit := 0
  sent := 0
  taperStop := false

/-- Remaining bytes (section 8.4). -/
def Play.remaining (q : Play) : Nat := q.x.length - q.p.sent

/-- The fall distance from the rate to the floor (R132). -/
def Play.fallDistance (q : Play) : Nat :=
  let d := q.p.rate - q.x.floor
  let m := d / q.x.fall
  let n := (d + q.x.fall - 1) / q.x.fall
  m * q.p.rate - q.x.fall * (m * (m + 1) / 2) + (n - m) * q.x.floor

/-- The taper point (R132). -/
def Play.taperPoint (q : Play) : Nat :=
  match q.x.taper with
  | .none => 0
  | .manual distance => distance
  | .auto offset => (max 0 (min (q.x.length : Int) ((q.fallDistance : Int) + offset))).toNat

/-- The taper check (R132). -/
def Play.taperCheck (q : Play) : Play :=
  if q.x.profile = .shaped && (q.p.phase = .rising || q.p.phase = .peak) && !q.p.taperStop && q.remaining ≤ q.taperPoint then
    { q with p.phase := .falling, p.target := .floor }
  else q

/-- The rate a fall aims at (R133, R154). -/
def Play.targetRate (q : Play) : Nat :=
  match q.p.target with
  | .floor => q.x.floor
  | .pendingPeak => q.p.pendingPeak.getD q.x.peak
  | .cap => q.x.cap

/-- The fall follows the cap, and one that has reached it ends in PEAK; under SHAPED it then rises if it is below (R155). -/
def Play.endCapFall (q : Play) : Play :=
  if q.p.phase = .falling && q.p.target = .cap && q.p.rate ≤ q.x.cap then
    { q with p.phase := if q.x.profile = .shaped && q.p.rate < q.x.cap then .rising else .peak }
  else q

/-- The cap check while STRAINED (R154, R155). -/
def Play.capCheck (q : Play) : Play :=
  if !q.strained then q
  else
    let q := q.endCapFall
    if q.p.rate ≤ q.x.cap then q
    else if q.p.phase = .falling && q.targetRate ≤ q.x.cap then q
    else { q with p.phase := .falling, p.target := .cap }

/-- A pending peak comes into force (R133, R142). -/
def Play.forcePeak (q : Play) : Play :=
  match q.p.pendingPeak with
  | none => q
  | some k => { q with x.peak := k, p.pendingPeak := none }

/-- The move of the rate by its phase (R133). -/
def Play.moveRate (q : Play) : Play :=
  match q.p.phase with
  | .rising =>
    let r := min q.ceiling (q.p.rate + q.x.rise)
    { q with p.rate := r, p.phase := if r = q.ceiling then .peak else .rising }
  | .falling =>
    let t := q.targetRate
    let r := max t (q.p.rate - q.x.fall)
    { q with p.rate := r, p.phase := if r = t then (if q.p.target = .floor then .floor else .peak) else .falling }
  | _ => q

/-- A pending peak at or above the rate comes into force, and the cap follows it (R133, R155). -/
def Play.settlePeak (q : Play) : Play :=
  if q.p.pendingPeak.any fun k => q.p.rate ≤ k then q.forcePeak.capCheck else q

/-- The rate update (R133). -/
def Play.rateUpdate (q : Play) : Play := q.moveRate.settlePeak

/-- JUMP-FLOOR (R142). -/
def Play.jumpFloor (q : Play) : Play :=
  let q := q.forcePeak
  { q with x.profile := .steadyFloor, p.rate := q.x.floor, p.phase := .floor }

/-- JUMP-PEAK (R142). -/
def Play.jumpPeak (q : Play) : Play :=
  let q := q.forcePeak
  { q with x.profile := .steadyPeak, p.rate := q.ceiling, p.phase := .peak }

/-- EASE-FLOOR (R143). -/
def Play.easeFloor (q : Play) : Play :=
  { q with x.profile := .shaped, p.phase := if q.p.rate = q.x.floor then .floor else .falling, p.target := .floor }

/-- EASE-PEAK (R143). -/
def Play.easePeak (q : Play) : Play :=
  { q with
    x.profile := .shaped
    p.phase := if q.p.pendingPeak.isSome then .falling else .rising
    p.target := if q.p.pendingPeak.isSome then .pendingPeak else q.p.target }

/-- After a RETUNE at or above the rate, a PEAK below the new peak rises (R144). -/
def Play.liftPeak (q : Play) : Play :=
  if q.p.phase = .peak && q.p.rate < q.x.peak then
    match q.x.profile with
    | .shaped => { q with p.phase := .rising }
    | .steadyPeak => { q with p.rate := q.ceiling }
    | .steadyFloor => q
  else q

/-- RETUNE to a new peak (R144). -/
def Play.retune (q : Play) (peak : Nat) : Play :=
  let k := max q.x.floor (clampNat 8 100000 peak)
  if k < q.p.rate then
    let stays := q.p.phase = .falling && q.p.target = .floor
    { q with
      p.pendingPeak := some k
      p.phase := .falling
      p.target := if stays then .floor else .pendingPeak }
  else
    let toPending := q.p.phase = .falling && q.p.target = .pendingPeak
    ({ q with x.peak := k, p.pendingPeak := none, p.phase := if toPending then .peak else q.p.phase } : Play).liftPeak

/-- The tracker leaves STRAINED (R156). -/
def Play.leaveStrained (q : Play) : Play :=
  if q.p.phase = .peak || (q.p.phase = .falling && q.p.target = .cap) then
    match q.x.profile with
    | .shaped => { q with p.phase := .rising, strained := false }
    | .steadyPeak => { q with p.rate := q.x.peak, p.phase := .peak, strained := false }
    | .steadyFloor => { q with strained := false }
  else { q with strained := false }

/-- The tracker enters STRAINED (R154). -/
def Play.enterStrained (q : Play) : Play := ({ q with strained := true } : Play).capCheck

/-- A fresh tracker (R129, R157). -/
def Tracker.fresh : Tracker := { state := .opened, inBand := 0, outBand := 0 }

/-- The counters move at a report (R152). -/
def Tracker.count (k : Tracker) (inBand : Bool) : Tracker :=
  if inBand then { k with inBand := min 15 (k.inBand + 1), outBand := 0 }
  else { k with inBand := 0, outBand := min 15 (k.outBand + 1) }

/-- The state after the counters have moved (R153). -/
def Tracker.judge (k : Tracker) (inBand : Bool) (kLock kUnlock : Nat) : TrackState :=
  match k.state, inBand with
  | .opened, true => if kLock ≤ k.inBand then .steady else .opened
  | .opened, false => if kUnlock ≤ k.outBand then .strained else .opened
  | .steady, false => if kUnlock ≤ k.outBand then .strained else .steady
  | .strained, true => if kLock ≤ k.inBand then .steady else .strained
  | st, _ => st

end Sys2Proof.Machine
end

