-- ==== Sys2Proof/Machine/Streams.lean ====
section
/-! DEFINITION. Machine/Streams.lean: the Stream Engine (Chapters 8 and 9). -/

namespace Sys2Proof.Machine

/-! ## A slot's current transfer -/

/-- The pacing view of a slot, while a pacer is present. -/
def Slot.play? (x : Slot) : Option Play :=
  match x.cur, x.pacer with
  | some c, some p => some { x := c.xfer, p := p, strained := x.tracker.any fun k => k.state = .strained }
  | _, _ => none

/-- The pacing view put back. -/
def Slot.setPlay (x : Slot) (q : Play) : Slot :=
  { x with cur := x.cur.map (fun c => { c with xfer := q.x }), pacer := some q.p }

/-- The slot is RUNNING or STALLED. -/
def Slot.runs (x : Slot) : Bool := x.state = .running || x.state = .stalled

/-- Bytes of the current transfer sent so far. -/
def Slot.sent (x : Slot) : Nat := (x.pacer.map (·.sent)).getD 0

/-- The owner of an IDLE slot without resume record is cleared (R125). -/
def Slot.tidy (x : Slot) : Slot := if x.state = .idle && x.resume.isNone then { x with owner := none } else x

/-- The tag counter's next value, skipping 0 (R128). -/
def nextSlotTag (n : Nat) : Nat := if 65535 ≤ n then 1 else n + 1

/-- The start event (R129). -/
def Slot.start (x : Slot) (now : Nat) : Slot :=
  match x.cur with
  | none => x
  | some c =>
    { x with
      state := .running
      cur := some { c with nextDropped := false }
      pacer := some (startPacer c.xfer)
      tracker := some Tracker.fresh
      interval := some (now + Config.intervalTime)
      stallStart := none
      primedAt := none }

/-- A record becomes current with a new tag: started, or PRIMED for its group (R128, R139, R149, R158). -/
def Slot.become (x : Slot) (r : Transfer) (now : Nat) : Slot :=
  let tag := nextSlotTag x.tagCounter
  let x := { x with
    cur := some { xfer := r, tag := tag, nextDropped := false }, tagCounter := tag, window := []
    pacer := none, tracker := none, interval := none, stallStart := none }
  if r.group = 0 then x.start now else { x with state := .primed, primedAt := some now }

/-- Placement codes (section 8.10). -/
def placement (r : Transfer) : Nat := if r.group = 0 then 0 else 1

/-- The tag of a slot's owner (R9). -/
def State.ownerTag (s : State) (x : Slot) : Nat := ((x.owner.bind s.peer).map (·.tag)).getD 0

/-- An unasked message of a slot, to its return address (R9). -/
def State.slotMessage (s : State) (x : Slot) (kind : Nat) (body : List Byte) : List OutMsg :=
  x.ret.toList.map fun a => .hbx a kind (s.ownerTag x) 0 0 body

/-! ## The fill window -/

/-- The places the window wants: that of the next byte, and the next one while it begins within the range (R130). -/
def State.wanted (s : State) (x : Slot) : List (Nat × Nat × Name) :=
  match x.cur with
  | none => []
  | some c =>
    match s.obj? c.xfer.obj with
    | none => []
    | some o =>
      if c.xfer.length ≤ x.sent then []
      else match s.placeAt (c.xfer.start + x.sent) 0 0 o.names with
        | none => []
        | some (i, off) =>
          match o.names[i]? with
          | none => []
          | some n =>
            let after := off + s.chunkLength n
            (i, off, n) ::
              (if after < c.xfer.start + c.xfer.length then (o.names[i + 1]?).toList.map fun k => (i + 1, after, k) else [])

/-- The fill window asks for the places it lacks (R130). -/
def fill (i : SlotNo) (s : State) : Work :=
  let x := s.slots[i]
  let new := (s.wanted x).filter fun w => !x.window.any fun p => p.place = w.1
  (s.updSlot i fun x => { x with window := x.window ++ new.map fun w =>
      { place := w.1, offset := w.2.1, name := w.2.2, length := s.chunkLength w.2.2, state := .entryWait } },
   new.flatMap fun w => [.lookup i w.1, .endWork])

/-- A window position looks its chunk up and acts on the answer (R36, R130). -/
def lookup (i : SlotNo) (place : Nat) (s : State) : Work :=
  match s.slots[i].window.find? fun w => w.place = place with
  | none => s.idle
  | some w =>
    match s.entry? w.name with
    | none => (s.updPos i place fun w => { w with state := .lost none }, [])
    | some e =>
      match e.state with
      | .staged | .striping => ((s.placeHold e.pages).updPos i place fun w => { w with state := .staging e.pages }, [])
      | .stored =>
        (s, e.loc.toList.map fun l => .requestFill { slot := i, place := place, name := w.name, length := e.length, loc := l })
      | .arriving | .checking => s.idle
      | .lost => (s.updPos i place fun w => { w with state := .lost none }, [])

/-- Positions that wait for an entry are answered again when it changes state (R36). -/
def entryChanged (name : Name) (s : State) : Work :=
  (s, slotNos.flatMap fun i =>
    ((s.slots[i].window.filter fun w => w.name = name && w.state = .entryWait).map fun w => [Task.lookup i w.place, .endWork]).flatten)

/-- What a freed window position lets go: its read hold or its pin (R131). -/
def WinPos.release (w : WinPos) : List Task :=
  match w.state with
  | .staging pages => [.unhold pages, .endWork]
  | .cached c | .copyWait c | .lost (some c) => [.unpin c, .endWork]
  | _ => []

/-- The waiting fills of freed positions are withdrawn (R84, R131). -/
def State.withdrawFills (s : State) (i : SlotNo) (ws : List WinPos) : State :=
  { s with buf.fillWait := s.buf.fillWait.filter fun r => !(r.slot = i && ws.any fun w => w.place = r.place) }

/-- Window positions that satisfy a test are freed (R131). -/
def State.freePositions (s : State) (i : SlotNo) (p : WinPos → Bool) : Work :=
  let ws := s.slots[i].window.filter p
  ((s.updSlot i fun x => { x with window := x.window.filter fun w => !p w }).withdrawFills i ws, ws.flatMap WinPos.release)

/-! ## Emission -/

/-- A position covers some byte of a range of the object. -/
def WinPos.covers (w : WinPos) (lo hi : Nat) : Bool := w.offset < hi && lo < w.offset + w.length

/-- A position is ready (R130). -/
def WinPos.ready (w : WinPos) : Bool :=
  match w.state with
  | .staging _ | .cached _ => true
  | _ => false

/-- A position is lost (R130). -/
def WinPos.isLost (w : WinPos) : Bool :=
  match w.state with
  | .lost _ => true
  | _ => false

/-- Bytes of a ready position's place. -/
def State.placeBytes (s : State) (w : WinPos) (off n : Nat) : List Byte :=
  match w.state with
  | .staging pages => s.buf.stagingMem.chunkBytes pages off n
  | .cached c => s.buf.cacheMem.chunkBytes (((s.copy? c).map (·.pages)).getD []) off n
  | _ => []

/-- The payload of a range from the positions that cover it (R130). -/
def State.payload (s : State) (ws : List WinPos) (lo hi : Nat) : List Byte :=
  ws.flatMap fun w =>
    let a := max lo w.offset
    let b := min hi (w.offset + w.length)
    s.placeBytes w (a - w.offset) (b - a)

/-- The first byte of the next segment, and its size: the least of 1,024, the remaining bytes, and the bytes to the end of
the second place (R134). -/
def Slot.nextSegment (x : Slot) (c : Current) : Nat × Nat :=
  let lo := c.xfer.start + x.sent
  let reach := (x.window.map fun w => w.offset + w.length).foldl max lo
  (lo, min Config.segmentBytes (min (c.xfer.length - x.sent) (reach - lo)))

/-- The MARK messages a placed segment reaches (R135). -/
def State.marks (s : State) (i : SlotNo) (x : Slot) (c : Current) (before after : Nat) : List OutMsg :=
  let mark (k m : Nat) : List OutMsg :=
    if m ≠ 0 && before < m && m ≤ after then
      s.slotMessage x kindMark (be 1 i ++ be 2 c.tag ++ be 1 k ++ be 8 (c.xfer.start + m))
    else []
  mark 1 c.xfer.mark1 ++ mark 2 c.xfer.mark2

/-- A segment is placed on the send queue (R134). -/
def State.placeSegment (s : State) (i : SlotNo) (x : Slot) (c : Current) (lo n : Nat) : State :=
  let data := s.payload (x.window.filter fun w => w.covers lo (lo + n)) lo (lo + n)
  let msgs := s.slotMessage x kindSegment (be 1 i ++ be 2 c.tag ++ be 8 lo ++ data)
  let s := (s.updSlot i fun x => { x with
      sendQueue := x.sendQueue ++ msgs
      pacer := x.pacer.map fun p => { p with credit := p.credit - n, sent := p.sent + n } }).issue .tables n
  (s.marks i x c x.sent (x.sent + n)).foldl State.send s

/-- The emission stops for want of credit, of room, or at the end: the credit is clamped (R134). -/
def State.clampCredit (s : State) (i : SlotNo) : State :=
  s.updSlot i fun x => { x with pacer := x.pacer.map fun p => { p with credit := min Config.maxCredit p.credit } }

/-- A slot stalls (R136). -/
def State.stall (s : State) (i : SlotNo) : State :=
  s.updSlot i fun x => { x with state := .stalled, stallStart := some s.now, pacer := x.pacer.map fun p => { p with credit := 0 } }

/-- The data of the next segment is ready: every position its bytes cover (R130). -/
def Slot.segmentReady (x : Slot) (lo n : Nat) : Bool :=
  0 < n && x.window.any (fun w => w.covers lo (lo + 1)) && (x.window.filter fun w => w.covers lo (lo + n)).all WinPos.ready

/-- The next segment covers a lost position (R131, R134), also where it begins in the place before it (DESIGN CHOICE, assumption
log 24). -/
def Slot.segmentLost (x : Slot) (lo n : Nat) : Bool := (x.window.filter fun w => w.covers lo (lo + n)).any WinPos.isLost

/-- The emission stage, one segment at a time (R134). -/
def emit (i : SlotNo) (s : State) : Work :=
  let x := s.slots[i]
  match x.cur, x.pacer with
  | some c, some p =>
    if x.state ≠ .running then s.idle
    else if c.xfer.length ≤ p.sent then (s, [.endTransfer i .done])
    else
      let g := x.nextSegment c
      if p.credit < g.2 || Config.sendPlaces ≤ x.sendQueue.length then (s.clampCredit i, [])
      else if x.segmentLost g.1 g.2 then (s, [.endTransfer i .lost])
      else if !x.segmentReady g.1 g.2 then (s.stall i, [])
      else
        let s := s.placeSegment i x c g.1 g.2
        let w := s.freePositions i fun w => w.offset + w.length ≤ g.1 + g.2
        (w.1, w.2 ++ [.fill i, .emit i])
  | _, _ => s.idle

/-- One pacing interval: taper check, rate update, credit, then the emission; the timer runs on (R132, R133, R134). -/
def State.pace (s : State) (i : SlotNo) : Work :=
  match s.slots[i].play? with
  | none => s.idle
  | some q =>
    let q := q.taperCheck.rateUpdate
    let s := s.updSlot i fun x => { x.setPlay q with interval := x.interval.map fun e => e + Config.intervalTime }
    if q.p.taperStop && q.p.rate = q.x.floor then (s, [.endTransfer i .tapered])
    else (s.updSlot i fun x => { x with pacer := x.pacer.map fun p => { p with credit := p.credit + p.rate } }, [.emit i])

/-- A RUNNING slot's interval expires (R134). -/
def pacingInterval (i : SlotNo) (s : State) : Work :=
  if s.slots[i].state = .running && s.due s.slots[i].interval then s.pace i else s.idle

/-- A STALLED slot's interval expires (R136). -/
def stalledInterval (i : SlotNo) (s : State) : Work :=
  let x := s.slots[i]
  match x.cur with
  | none => s.idle
  | some c =>
    if x.state = .stalled && s.due x.interval then
      let g := x.nextSegment c
      let next := s.updSlot i fun x => { x with interval := x.interval.map fun e => e + Config.intervalTime }
      if x.segmentLost g.1 g.2 then (next, [.endTransfer i .lost])
      else if x.segmentReady g.1 g.2 then (s.updSlot i fun x => { x with state := .running, stallStart := none }).pace i
      else next.idle
    else s.idle

/-- 20 s pass from a stall's start (R137). -/
def stallTimeout (i : SlotNo) (s : State) : Work :=
  let x := s.slots[i]
  if x.state = .stalled && x.stallStart.any fun e => e + Config.stallTime ≤ s.now then
    (s, [.endTransfer i (if s.power.state = .awake then .stall else .asleep)])
  else s.idle

/-! ## The end of a transfer -/

/-- The transfer ends: its timer stops and its window is freed; the rest follows (R138 steps 1 and 2). -/
def endTransfer (i : SlotNo) (reason : EndReason) (s : State) : Work :=
  if s.slots[i].state = .idle then s.idle
  else
    let w := (s.updSlot i fun x => { x with interval := none, primedAt := none }).freePositions i fun _ => true
    (w.1, w.2 ++ [.endTail i reason])

/-- The next record is to be promoted (R138 step 3). -/
def EndReason.promotes : EndReason → Bool
  | .done | .retarget | .lost => true
  | _ => false

/-- Bytes remaining at an end; 0 for RETARGET (R138). -/
def Slot.remaining (x : Slot) (c : Current) (reason : EndReason) : Nat :=
  if reason = .retarget then 0 else c.xfer.length - x.sent

/-- The next outcome of an ENDED (R138 step 4). The next-dropped mark decides also where a DROP-NEXT has removed a later next
record (DESIGN CHOICE, assumption log 43). -/
def Slot.nextOutcome (x : Slot) (c : Current) (reason : EndReason) : Nat :=
  if x.next.isSome then (if reason.promotes then 1 else 2) else if c.nextDropped then 2 else 0

/-- The ENDED of a transfer (R138 step 4). -/
def State.endedMessage (s : State) (i : SlotNo) (x : Slot) (c : Current) (reason : EndReason) : List OutMsg :=
  s.slotMessage x kindEnded
    (be 1 i ++ be 2 c.tag ++ be 1 reason.code ++ be 8 x.sent ++ be 8 (x.remaining c reason) ++ be 1 (x.nextOutcome c reason))

/-- The resume record of an ended transfer (R140). -/
def Slot.makeResume (x : Slot) (c : Current) (now : Nat) : Resume where
  xfer := { c.xfer with peak := (x.pacer.bind (·.pendingPeak)).getD c.xfer.peak }
  sent := x.sent
  made := now

/-- The slot after its transfer's end, before any promotion (R138 steps 5 and 6). -/
def Slot.ended (x : Slot) (c : Current) (reason : EndReason) (now : Nat) : Slot :=
  { x with
    state := .idle, cur := none, next := none, pacer := none, tracker := none, window := []
    stallStart := none, interval := none, primedAt := none
    resume := if x.remaining c reason = 0 then x.resume else some (x.makeResume c now) }

/-- Claims released at an end: that of a dropped next record, and that of the current record or of the resume record it
replaces (R138 steps 3 and 5, R140). -/
def Slot.releases (x : Slot) (c : Current) (reason : EndReason) : List Nat :=
  (if reason.promotes then [] else x.next.toList.map (·.obj)) ++
    (if x.remaining c reason = 0 then [c.xfer.obj] else x.resume.toList.map fun r => r.xfer.obj)

/-- Claims released, each its own work. -/
def releaseTasks (ids : List Nat) : List Task := ids.flatMap fun id => [.releasePlay id, .endWork]

/-- Steps 3 to 6 of R138: a removal a release brings about comes after the ENDED. -/
def endTail (i : SlotNo) (reason : EndReason) (s : State) : Work :=
  let x := s.slots[i]
  match x.cur with
  | none => s.idle
  | some c =>
    let s := (s.endedMessage i x c reason).foldl State.send s
    let y := x.ended c reason s.now
    let y := match if reason.promotes then x.next else none with
      | some r => y.become r s.now
      | none => y.tidy
    (s.updSlot i fun _ => y, releaseTasks (x.releases c reason) ++ [.fill i])

/-- 30 s pass from the making of a resume record; the timer is frozen in DEEP (R140). -/
def resumeExpiry (i : SlotNo) (s : State) : Work :=
  match s.slots[i].resume with
  | none => s.idle
  | some r =>
    if s.power.state ≠ .deep && r.made + Config.resumeLife ≤ s.now then
      (s.updSlot i fun x => ({ x with resume := none } : Slot).tidy, releaseTasks [r.xfer.obj])
    else s.idle

/-- 60 s pass from the moment a record became PRIMED (R158). -/
def primedTimeout (i : SlotNo) (s : State) : Work :=
  let x := s.slots[i]
  if x.state = .primed && x.primedAt.any fun e => e + Config.primedTime ≤ s.now then (s, [.endTransfer i .unstarted]) else s.idle

/-! ## PLAY and RESUME -/

/-- The slot a message names, if it is one. -/
def slotOf (n : Nat) : Option SlotNo := if h : n < 8 then some ⟨n, h⟩ else none

/-- The IDLE slot whose resume record was made earliest; of equal times the lowest (R128). -/
def State.oldestResume (s : State) : Option SlotNo :=
  (slotNos.filter fun i => s.slots[i].state = .idle && s.slots[i].resume.isSome).foldl
    (fun (best : Option SlotNo) i =>
      match best with
      | none => some i
      | some b => if (s.slots[i].resume.map (·.made)).getD 0 < (s.slots[b].resume.map (·.made)).getD 0 then some i else some b) none

/-- The slot a PLAY "any" takes (R128). -/
def State.anySlot (s : State) : Option SlotNo :=
  (slotNos.find? fun i => s.slots[i].state = .idle && s.slots[i].owner.isNone && s.slots[i].resume.isNone).orElse
    fun _ => s.oldestResume

/-- The verdict of steps 3 and 4 of R127: the slot, or a refusal. -/
def State.playSlot (s : State) (n sender : Nat) : Except Nat SlotNo :=
  match slotOf n with
  | some i =>
    if s.slots[i].owner.any fun o => o ≠ sender then .error stNotAllowed
    else if s.slots[i].state ≠ .idle && s.slots[i].next.isSome then .error stNextFull
    else .ok i
  | none =>
    match s.anySlot with
    | some i => .ok i
    | none => .error stBusy

/-- The REPLY data of a PLAY (section 8.10). -/
def playData (i : SlotNo) (where' tag : Nat) (r : Transfer) : List Byte :=
  be 1 i ++ be 1 where' ++ be 2 tag ++ be 8 r.length ++ be 4 r.floor ++ be 4 r.peak ++ be 2 r.rise ++ be 2 r.fall

/-- An accepted PLAY is placed (R128); its window fills before its REPLY is queued (DESIGN CHOICE, assumption log 42). -/
def State.placePlay (s : State) (m : Msg) (i : SlotNo) (r : Transfer) (any : Bool) : Work :=
  let sender := s.sender m
  let x := s.slots[i]
  let y := { x with ret := some m.src, owner := if any then some sender else some (x.owner.getD sender) }
  if x.state = .idle then
    let y := ({ y with resume := none } : Slot).become r s.now
    let tag := y.tagCounter
    (s.updSlot i fun _ => y,
     releaseTasks (x.resume.toList.map fun q => q.xfer.obj) ++ [.fill i, .send (s.replyTo m stOk (playData i (placement r) tag r))])
  else (s.updSlot i fun _ => { y with next := some r }, [.send (s.replyTo m stOk (playData i 2 0 r))])

/-- A PLAY is judged (R127). -/
def play (m : Msg) (s : State) : Work :=
  let n := byteAt m.body 0
  let id := field m.body 1 4
  if 7 < n && n ≠ 0xFF then s.refuse m stBadRange
  else if playRefused m.body then s.refuse m stBadRange
  else match s.playSlot n (s.sender m) with
    | .error st => s.refuse m st
    | .ok i =>
      match s.claimRefusal id, s.obj? id with
      | some st, _ => s.refuse m st
      | none, none => s.refuse m stNoSuch
      | none, some o =>
        if o.total ≤ field m.body 5 8 then s.refuse m stBadRange
        else (s.claim id).placePlay m i (playTransfer m.body o.total) (7 < n)

/-- The record a RESUME restarts (R149). -/
def Resume.restart (r : Resume) (b : List Byte) : Transfer :=
  let mark (m : Nat) := if r.sent < m then m - r.sent else 0
  let x := { r.xfer with
    start := r.xfer.start + r.sent, length := r.xfer.length - r.sent, mark1 := mark r.xfer.mark1, mark2 := mark r.xfer.mark2
    group := byteAt b 15 }
  if byteAt b 1 = 1 then
    let k := clampRates (field b 3 4) (field b 7 4) (field b 11 2) (field b 13 2)
    { x with profile := (Profile.ofCode (byteAt b 2)).getD .steadyFloor, floor := k.floor, peak := k.peak, rise := k.rise, fall := k.fall }
  else x

/-- The fields of a RESUME that refuse it (R149). -/
def resumeRefused (b : List Byte) : Bool :=
  1 < byteAt b 1 || 15 < byteAt b 15 || (byteAt b 1 = 1 && (Profile.ofCode (byteAt b 2)).isNone)

/-- A RESUME is judged (R141, R149); its window fills before its REPLY is queued (DESIGN CHOICE, assumption log 42). -/
def resume (m : Msg) (s : State) : Work :=
  match slotOf (byteAt m.body 0) with
  | none => s.refuse m stBadRange
  | some i =>
    let x := s.slots[i]
    let bare := x.state = .idle && x.resume.isNone
    if !bare && x.owner ≠ some (s.sender m) then s.refuse m stNotAllowed
    else if resumeRefused m.body then s.refuse m stBadRange
    else if x.state ≠ .idle then s.refuse m stBusy
    else match x.resume with
      | none => s.refuse m stNoSuch
      | some r =>
        let t := r.restart m.body
        let y := ({ x with resume := none, ret := some m.src } : Slot).become t s.now
        (s.updSlot i fun _ => y,
         [.fill i, .send (s.replyTo m stOk (be 2 y.tagCounter ++ be 8 t.start ++ be 8 t.length ++ be 1 (placement t)))])

/-! ## Rate actions and other controls -/

/-- The slot a control request names, or its refusal (R141). -/
def State.ownSlot (s : State) (m : Msg) : Except Nat SlotNo :=
  match slotOf (byteAt m.body 0) with
  | none => .error stBadRange
  | some i => if s.slots[i].owner = some (s.sender m) then .ok i else .error stNotAllowed

/-- The REPLY data of a RATE (section 8.10). -/
def rateData (q : Play) : List Byte :=
  be 4 q.p.rate ++ be 1 q.p.phase.code ++ be 4 q.x.peak ++ be 4 (q.p.pendingPeak.getD 0)

/-- A RATE is judged and its action applied, then the cap check (R141, R142, R155). -/
def rateAction (act : Play → Play) (m : Msg) (s : State) : Work :=
  match s.ownSlot m with
  | .error st => s.refuse m st
  | .ok i =>
    if 4 < byteAt m.body 1 then s.refuse m stBadRange
    else if !s.slots[i].runs then s.refuse m stNotRunning
    else match s.slots[i].play? with
      | none => s.refuse m stNotRunning
      | some q =>
        if q.p.taperStop then s.refuse m stBusy
        else
          let q := (act q).capCheck
          ((s.updSlot i fun x => x.setPlay q).reply m stOk (rateData q), [])

/-- The tracker is reset; a reset from STRAINED leaves it (R156, R157). -/
def Slot.resetTracker (x : Slot) : Slot :=
  let x := match x.play? with
    | none => x
    | some q => if q.strained then x.setPlay q.leaveStrained else x
  { x with tracker := some Tracker.fresh }

/-- A RETARGET is judged (R145); its window fills before its REPLY is queued (DESIGN CHOICE, assumption log 42). -/
def retarget (m : Msg) (s : State) : Work :=
  match s.ownSlot m with
  | .error st => s.refuse m st
  | .ok i =>
    let x := s.slots[i]
    if !x.runs then s.refuse m stNotRunning
    else if field m.body 1 8 = 0 then s.refuse m stBadRange
    else match x.cur with
      | none => s.refuse m stNotRunning
      | some c =>
        let total := ((s.obj? c.xfer.obj).map (·.total)).getD 0
        let l := min (field m.body 1 8) (total - c.xfer.start)
        if l ≤ x.sent then (s, [.endTransfer i .retarget, .send (s.replyTo m stOk (be 1 1 ++ be 8 l))])
        else
          let s := s.updSlot i fun x =>
            ({ x with cur := x.cur.map fun c => { c with xfer.length := l } } : Slot).resetTracker
          let w := s.freePositions i fun w => c.xfer.start + l ≤ w.offset
          (w.1, w.2 ++ [.fill i, .send (s.replyTo m stOk (be 1 0 ++ be 8 l))])

/-- A DROP-NEXT is judged (R146). -/
def dropNext (m : Msg) (s : State) : Work :=
  match s.ownSlot m with
  | .error st => s.refuse m st
  | .ok i =>
    match s.slots[i].next with
    | none => s.refuse m stNoSuch
    | some r => (s.updSlot i fun x => { x with next := none }, releaseTasks [r.obj] ++ [.send (s.replyTo m stOk [])])

/-- A STOP is judged (R147). -/
def stop (m : Msg) (s : State) : Work :=
  match s.ownSlot m with
  | .error st => s.refuse m st
  | .ok i =>
    if s.slots[i].state = .idle then s.refuse m stNotRunning
    else (s, [.endTransfer i .stopped, .send (s.replyTo m stOk [])])

/-- The next record is dropped by a TAPER-STOP (R148). -/
def State.taperDrop (s : State) (i : SlotNo) : State :=
  s.updSlot i fun x =>
    if x.next.isSome then { x with next := none, cur := x.cur.map fun c => { c with nextDropped := true } } else x

/-- A TAPER-STOP is judged (R148). -/
def taperStop (m : Msg) (s : State) : Work :=
  match s.ownSlot m with
  | .error st => s.refuse m st
  | .ok i =>
    let x := s.slots[i]
    if !x.runs then s.refuse m stNotRunning
    else match x.play? with
      | none => s.refuse m stNotRunning
      | some q =>
        let drops := releaseTasks (x.next.toList.map (·.obj))
        let s := s.taperDrop i
        if q.p.rate = q.x.floor then (s, drops ++ [.endTransfer i .tapered, .send (s.replyTo m stOk [1])])
        else
          let q : Play := { q with p.taperStop := true, p.phase := .falling, p.target := .floor }
          (s.updSlot i fun x => x.setPlay q, drops ++ [.send (s.replyTo m stOk [0])])

/-- An ALL-STOP (R163). -/
def allStop (m : Msg) (s : State) : Work :=
  let is := slotNos.filter fun i => s.slots[i].state ≠ .idle
  (s, is.map (Task.endTransfer · .stopped) ++ [.send (s.replyTo m stOk (be 1 is.length))])

/-! ## Viewer reports -/

/-- A VIEW-REPORT reaches this slot's tracker (R151). -/
def State.reportTaken (s : State) (m : Msg) (i : SlotNo) : Bool :=
  let x := s.slots[i]
  x.owner = some (s.sender m) && x.runs && x.cur.any fun c => c.tag = field m.body 1 2

/-- The report moves the tracker, and the pacer with it (R152, R153, R154, R156). -/
def Slot.report (x : Slot) (received kLock kUnlock : Nat) : Slot :=
  match x.tracker, x.play? with
  | some k, some q =>
    let inBand : Bool := q.p.sent - received ≤ q.x.lagBand
    let k' := k.count inBand
    let st := k'.judge inBand kLock kUnlock
    let q' := if st = .strained && k.state ≠ .strained then q.enterStrained
      else if st ≠ .strained && k.state = .strained then q.leaveStrained else q
    { x.setPlay q' with tracker := some { k' with state := st } }
  | _, _ => x

/-- A VIEW-REPORT (R151, R152). -/
def viewReport (m : Msg) (s : State) : Work :=
  match slotOf (byteAt m.body 0) with
  | none => s.idle
  | some i =>
    if s.reportTaken m i then
      (s.updSlot i fun x => x.report (field m.body 3 8) s.loader.image.kLock s.loader.image.kUnlock, [])
    else s.idle

/-! ## Groups -/

/-- The group a message carries, if it is 1..15. -/
def groupOf (m : Msg) : Option Nat := if 1 ≤ byteAt m.body 0 && byteAt m.body 0 ≤ 15 then some (byteAt m.body 0) else none

/-- The slot is PRIMED with a group (R159). -/
def Slot.primedIn (g : Nat) (x : Slot) : Bool := x.state = .primed && x.cur.any fun c => c.xfer.group = g

/-- GROUP-GO starts every PRIMED slot of a group (R159). -/
def State.goGroup (s : State) (g : Nat) : State :=
  { s with slots := s.slots.map fun x => if x.primedIn g then x.start s.now else x }

/-- Slots GROUP-HALT ends (R161). -/
def State.haltSlots (s : State) (g : Nat) : List SlotNo :=
  slotNos.filter fun i => s.slots[i].state ≠ .idle && s.slots[i].cur.any fun c => c.xfer.group = g && c.xfer.haltWithGroup

/-- The tasks of a GROUP-HALT, in slot order (R161). -/
def State.haltTasks (s : State) (g : Nat) : List Task := (s.haltSlots g).map (Task.endTransfer · .halted)

/-- A GROUP-GO (R159). -/
def groupGo (m : Msg) (s : State) : Work :=
  match groupOf m with
  | none => s.idle
  | some g => (s.goGroup g, [])

/-- A GROUP-HALT (R161). -/
def groupHalt (m : Msg) (s : State) : Work :=
  match groupOf m with
  | none => s.idle
  | some g => (s, s.haltTasks g)

/-- A GROUP-GO or GROUP-HALT broadcast of the box (R9, R160, R162). -/
def State.groupBroadcast (s : State) (k : Kind) (g : Nat) : OutMsg := .hbx s.broadcast k.code 0 0 0 (be 1 g)

/-- A GROUP-CALL (R160). -/
def groupCall (m : Msg) (s : State) : Work :=
  match groupOf m with
  | none => s.refuse m stBadRange
  | some g =>
    let n := s.slots.toList.countP (Slot.primedIn g)
    (((s.goGroup g).send (s.groupBroadcast .groupGo g)).reply m stOk (be 1 n), [])

/-- A HALT-CALL (R162). -/
def haltCall (m : Msg) (s : State) : Work :=
  match groupOf m with
  | none => s.refuse m stBadRange
  | some g =>
    (s, s.haltTasks g ++ [.send (s.groupBroadcast .groupHalt g), .send (s.replyTo m stOk (be 1 (s.haltSlots g).length))])

end Sys2Proof.Machine
end

