-- ==== Sys2Proof/Machine/Engine.lean ====
section
/-! DEFINITION. Machine/Engine.lean: how a command's work is carried out: what each task does, the order of the tasks, and
the form every command's meaning has (assumption logs 1 and 4). -/

namespace Sys2Proof.Machine

/-- What a task does, and what it leaves to do before the tasks behind it. -/
def carryOut (t : Task) (s : State) : Work :=
  match t with
  | .endWork => s.idle
  | .send m => (s.send m, [])
  | .append r => s.append r []
  | .resume => resumeWork s
  | .endResume => endResume s
  | .closeBlock => closeBlock s
  | .startCheckpoint => startCheckpoint s
  | .offerBlocks => offerBlocks s
  | .judgeBlocks => judgeBlocks s
  | .journalDemand => journalDemand s
  | .reported => reported s
  | .journalEnded use done => journalEnded use done s
  | .loadEnded use data => loadEnded use data s
  | .stopJournal => stopJournal s
  | .advanceCheckpoint => advanceCheckpoint s
  | .offerPiece member index => offerPiece member index s
  | .free name => freeEntry name s
  | .released stripes => releasedStripes stripes s
  | .decrement name => decrement name s
  | .abandonEntry name => abandonEntry name s
  | .checked name => checkedEntry name s
  | .markLost name loc => markLost name loc s
  | .entryChanged name => entryChanged name s
  | .toldLost name => (s.tellLost name, [])
  | .pagesDue pages => pagesDue pages s
  | .unhold pages => releaseHold pages s
  | .pagesFreed => pagesFreed s
  | .stagingDemand => stagingDemand s
  | .askParity stripe => askParity stripe s
  | .releaseParity pages => releaseParity pages s
  | .requestFill request => requestFill request s
  | .retryFills => retryFills s
  | .unpin copy => unpin copy s
  | .dropCopy copy => dropCopy copy s
  | .reapCopy copy => reapCopy copy s
  | .landed copy => landed copy s
  | .readFailed copy => readFailed copy s
  | .verified copy => verified copy s
  | .walk => walk s
  | .closeStripe => closeStripe s
  | .judgeQueueing => judgeQueueing s
  | .writeEnded stripe member done => writeEnded stripe member done s
  | .judgeWriteOut stripe => judgeWriteOut stripe s
  | .appendStored stripe slot => appendStored stripe slot s
  | .markStored stripe name => markStored stripe name s
  | .writeOutTail stripe => writeOutTail stripe s
  | .judgeStored stripe => judgeStored stripe s
  | .slotStored stripe slot => slotStored stripe slot s
  | .stripeHeld stripe => stripeHeld stripe s
  | .judgeStripe stripe => judgeStripe stripe s
  | .abandonTail stripe => abandonTail stripe s
  | .routeRead copy => routeRead copy s
  | .busyDown stripe => busyDown stripe s
  | .newJob kind stripe target length => newJob kind stripe target length s
  | .startJob job => startJob job s
  | .freePlace => freePlace s
  | .sourceEnded job member stripe landed => sourceEnded job member stripe landed s
  | .withdrawRead copy => withdrawRead copy s
  | .repair copy => repair copy s
  | .repaired copy => repaired copy s
  | .repairFailed copy => repairFailed copy s
  | .repairEnded job => repairEnded job s
  | .repairDemand => repairDemand s
  | .judgeRebuild => judgeRebuild s
  | .rebuildStep => rebuildStep s
  | .rebuildEnd => rebuildEnd s
  | .haltRebuild => haltRebuild s
  | .memberFailed member => memberFailed member s
  | .memberLeft member => memberLeft member s
  | .judgeCond => judgeCond s
  | .storeBroken => storeBroken s
  | .labelRound => labelRound s
  | .offer bay giver cmd => offerCmd bay giver cmd s
  | .pump bay => pump bay s
  | .placeFreed bay => placeFreed bay s
  | .cmdFailed bay cmd => cmdFailed bay cmd s
  | .declareFailed bay removed => declareFailed bay removed s
  | .endPort bay => endPort bay s
  | .leaveMember bay removed => leaveMember bay removed s
  | .spinUp bay => spinUp bay s
  | .substateReport => substateReport s
  | .startProbe bay => startProbe bay s
  | .classify bay => classify bay s
  | .probeFailed bay => probeFailed bay s
  | .takeLatch bay => takeLatch bay s
  | .reinsert bay => reinsert bay s
  | .rebuildWritten job => rebuildWritten job s
  | .commandEnded done => commandEnded done s
  | .removeObject id => removeObject id s
  | .dropObject id => dropObject id s
  | .releasePlay id => releasePlay id s
  | .albumFall id => albumFall id s
  | .takeEntry album => takeEntry album s
  | .freeAlbum album => freeAlbum album s
  | .objectRecords id run => objectRecords id run s
  | .objectRecorded id run => objectRecorded id run s
  | .discardObject id => discardObject id s
  | .endRun run => endRun run s
  | .closeAfterReclaim run => closeAfterReclaim run s
  | .abandonArrival index reason => abandonArrival index reason s
  | .freeArrival index => freeArrival index s
  | .reclaim run => reclaim run s
  | .closeZero run => closeZero run s
  | .judgeClose run => judgeClose run s
  | .completeRun run ok => completeRun run ok s
  | .fill slot => fill slot s
  | .lookup slot place => lookup slot place s
  | .endTransfer slot reason => endTransfer slot reason s
  | .endTail slot reason => endTail slot reason s
  | .emit slot => emit slot s
  | .peerDemand peer => peerDemand peer s
  | .raise d => raiseDemand d s
  | .lower d => lowerDemand d s
  | .momentary => momentary s
  | .flush => flush s
  | .orderSpinUp => orderSpinUp s
  | .enterWaking => enterWaking s
  | .judgeAwake => judgeAwake s
  | .enterAwake => enterAwake s
  | .deepCheck => deepCheck s
  | .answerWake dest seq => answerWake dest seq s
  | .enterDeep => enterDeep s
  | .exitDeep cause => exitDeep cause s
  | .resumeTimers => resumeTimers s
  | .takeReserve => takeReserve s
  | .settle => settle s
  | .startProbes => startProbes s
  | .judgeProbes => judgeProbes s
  | .assignMembers => assignMembers s
  | .formStore => formStore s
  | .judgeFormation => judgeFormation s
  | .loadMember member => loadMember member s
  | .tryImage => tryImage s
  | .readBlock => readRing s
  | .endReplay => endReplay s
  | .reconcileObjects => reconcileObjects s
  | .reconcileChunks => reconcileChunks s
  | .reconcileStripes => reconcileStripes s
  | .endStartup => endStartup s
  | .enterAwakeFirst => enterAwakeFirst s
  | .storeAbsent => storeAbsent s

/-- A task is carried out with the tasks behind it: an append may pause some of them (R89). -/
def taskStep (t : Task) (rest : List Task) (s : State) : Work :=
  match t with
  | .append r => s.append r rest
  | t => ((carryOut t s).1, (carryOut t s).2 ++ rest)

/-- Tasks are carried out in order; what the bound leaves is kept for the next command (assumption log 4). -/
def State.runTasks : Nat → List Task → State → State
  | _, [], s => s
  | 0, ts, s => { s with unfinished := s.unfinished ++ ts }
  | n + 1, t :: ts, s => State.runTasks n (taskStep t ts s).2 (taskStep t ts s).1

/-- A piece of work is carried out. -/
def State.finish (w : Work) : State := State.runTasks Config.taskFuel w.2 w.1

/-- The state in which a command's event finds the part: time has moved on, and no earlier work is unfinished. -/
def State.arrive (s : State) (t : Nat) : State :=
  State.finish (({ s with unfinished := [] } : State).atTime t, s.unfinished)

/-- The form of every command's meaning: at its time, its event's work is carried out. -/
def State.event (s : State) (t : Nat) (f : State → Work) : Host.Outcome State Fault Refusal :=
  .next (State.finish (f (s.arrive t)))

/-- The meaning of a message command: the oldest frame's message, when it is one of those this command takes, is checked
and handed to its block (R1, R6). -/
def State.message (s : State) (t : Nat) (mine : Msg → Bool) (act : Msg → State → Work) : Host.Outcome State Fault Refusal :=
  s.event t fun s => s.takeMessage mine act

end Sys2Proof.Machine
end

