-- ==== Sys2Proof/Machine/Albums.lean ====
section
/-! DEFINITION. Machine/Albums.lean: the commands of objects and albums (Chapter 3), each over the shared operations. -/

namespace Sys2Proof.Machine

/-- OBJECT_BEGIN (R41). -/
def execObjectBegin (t : Nat) (s : State) : Host.Outcome State Fault Refusal :=
  s.message t (isKind .objectBegin) Machine.objectBegin

/-- OBJECT_APPEND (R42). -/
def execObjectAppend (t : Nat) (s : State) : Host.Outcome State Fault Refusal :=
  s.message t (isKind .objectAppend) Machine.objectAppend

/-- OBJECT_FINISH (R43). -/
def execObjectFinish (t : Nat) (s : State) : Host.Outcome State Fault Refusal :=
  s.message t (isKind .objectFinish) Machine.objectFinish

/-- OBJECT_DELETE (R47). -/
def execObjectDelete (t : Nat) (s : State) : Host.Outcome State Fault Refusal :=
  s.message t (isKind .objectDelete) Machine.objectDelete

/-- OBJECT_INFO (R46). -/
def execObjectInfo (t : Nat) (s : State) : Host.Outcome State Fault Refusal :=
  s.message t (isKind .objectInfo) Machine.objectInfo

/-- ALBUM_CREATE (R50). -/
def execAlbumCreate (t : Nat) (s : State) : Host.Outcome State Fault Refusal :=
  s.message t (isKind .albumCreate) Machine.albumCreate

/-- ALBUM_ADD (R51). -/
def execAlbumAdd (t : Nat) (s : State) : Host.Outcome State Fault Refusal :=
  s.message t (isKind .albumAdd) Machine.albumAdd

/-- ALBUM_REMOVE (R52). -/
def execAlbumRemove (t : Nat) (s : State) : Host.Outcome State Fault Refusal :=
  s.message t (isKind .albumRemove) Machine.albumRemove

/-- ALBUM_DROP (R53). -/
def execAlbumDrop (t : Nat) (s : State) : Host.Outcome State Fault Refusal :=
  s.message t (isKind .albumDrop) Machine.albumDrop

/-- ALBUM_LIST (R54). -/
def execAlbumList (t : Nat) (s : State) : Host.Outcome State Fault Refusal :=
  s.message t (isKind .albumList) Machine.albumList

end Sys2Proof.Machine
end

