-- ==== Sys2Proof/Machine/Backup.lean ====
section
/-! DEFINITION. Machine/Backup.lean: the commands of backup runs, arrivals and Check Lanes (Chapter 4), each over the shared operations. -/

namespace Sys2Proof.Machine

/-- RUN_OPEN (R58). -/
def execRunOpen (t : Nat) (s : State) : Host.Outcome State Fault Refusal :=
  s.message t (isKind .runOpen) Machine.runOpen

/-- RUN_CLOSE (R62). -/
def execRunClose (t : Nat) (s : State) : Host.Outcome State Fault Refusal :=
  s.message t (isKind .runClose) Machine.runClose

/-- RUN_ABORT (R61). -/
def execRunAbort (t : Nat) (s : State) : Host.Outcome State Fault Refusal :=
  s.message t (isKind .runAbort) Machine.runAbort

/-- OFFER (R67). -/
def execOffer (t : Nat) (s : State) : Host.Outcome State Fault Refusal :=
  s.message t (isKind .offer) Machine.offer

/-- CHUNK (R71). -/
def execChunk (t : Nat) (s : State) : Host.Outcome State Fault Refusal :=
  s.message t (isKind .chunk) Machine.chunk

/-- ARRIVAL_TIMEOUT (R73). -/
def execArrivalTimeout (t : Nat) (record : Fin 32) (s : State) : Host.Outcome State Fault Refusal :=
  s.event t (arrivalTimeout record)

/-- RUN_IDLE_TIMEOUT (R59). -/
def execRunIdleTimeout (t : Nat) (run : Nat) (s : State) : Host.Outcome State Fault Refusal :=
  s.event t (runIdleTimeout run)

/-- CHECK_LANE_TAKE (R75). -/
def execCheckLaneTake (t : Nat) (lane : Fin 2) (verifyFirst : Bool) (s : State) : Host.Outcome State Fault Refusal :=
  s.event t fun s => (s.laneTake lane verifyFirst, [])

/-- CHECK_RESULT_INGEST (R76). -/
def execCheckResultIngest (t : Nat) (lane : Fin 2) (s : State) : Host.Outcome State Fault Refusal :=
  s.event t (checkResultIngest lane)

/-- CHECK_RESULT_VERIFY (R85). -/
def execCheckResultVerify (t : Nat) (lane : Fin 2) (s : State) : Host.Outcome State Fault Refusal :=
  s.event t (checkResultVerify lane)

end Sys2Proof.Machine
end

