-- ==== Sys2Proof/Machine/Bays.lean ====
section
/-! DEFINITION. Machine/Bays.lean: the commands of what the disks report (Chapter 7), each over the shared operations. -/

namespace Sys2Proof.Machine

/-- CAPACITY_READ_END (R116). -/
def execCapacityReadEnd (t : Nat) (report : DiskReport) (capacity : Nat) (s : State) : Host.Outcome State Fault Refusal :=
  s.event t (capacityReadEnd report.bay report.attempt capacity)

/-- LABEL_DONE (R117). -/
def execLabelDone (t : Nat) (report : DiskReport) (data : List Byte) (s : State) : Host.Outcome State Fault Refusal :=
  s.event t (labelDone report.bay report.attempt data)

/-- READ_SLOT_DONE (R107). -/
def execReadSlotDone (t : Nat) (report : DiskReport) (data : List Byte) (s : State) : Host.Outcome State Fault Refusal :=
  s.event t (readSlotDone report.bay report.attempt data)

/-- WRITE_SLOT_DONE (R102). -/
def execWriteSlotDone (t : Nat) (report : DiskReport) (s : State) : Host.Outcome State Fault Refusal :=
  s.event t (writeSlotDone report.bay report.attempt)

/-- READ_JOURNAL_DONE (R189). -/
def execReadJournalDone (t : Nat) (report : DiskReport) (data : List Byte) (s : State) : Host.Outcome State Fault Refusal :=
  s.event t (readJournalDone report.bay report.attempt data)

/-- WRITE_JOURNAL_DONE (R182). -/
def execWriteJournalDone (t : Nat) (report : DiskReport) (s : State) : Host.Outcome State Fault Refusal :=
  s.event t (writeJournalDone report.bay report.attempt)

/-- SPIN_DOWN_DONE (R123). -/
def execSpinDownDone (t : Nat) (report : DiskReport) (s : State) : Host.Outcome State Fault Refusal :=
  s.event t (spinDownDone report.bay report.attempt)

/-- COMMAND_ATTEMPT_FAILED (R120). -/
def execCommandAttemptFailed (t : Nat) (report : DiskReport) (s : State) : Host.Outcome State Fault Refusal :=
  s.event t (errorReport report.bay report.attempt)

/-- COMMAND_TIMEOUT (R120). -/
def execCommandTimeout (t : Nat) (bay : BayNo) (s : State) : Host.Outcome State Fault Refusal :=
  s.event t (commandTimeout bay)

/-- SPIN_UP_READY (R122). -/
def execSpinUpReady (t : Nat) (bay : BayNo) (s : State) : Host.Outcome State Fault Refusal :=
  s.event t (spinUpReady bay)

/-- SPIN_UP_TIMEOUT (R122). -/
def execSpinUpTimeout (t : Nat) (bay : BayNo) (s : State) : Host.Outcome State Fault Refusal :=
  s.event t (spinUpTimeout bay)

/-- POWER_CYCLE_ON (R122). -/
def execPowerCycleOn (t : Nat) (bay : BayNo) (s : State) : Host.Outcome State Fault Refusal :=
  s.event t (powerCycleOn bay)

/-- DISK_INSERTED (R116). -/
def execDiskInserted (t : Nat) (bay : BayNo) (same : Bool) (s : State) : Host.Outcome State Fault Refusal :=
  s.event t (diskInserted bay same)

/-- DISK_REMOVED (R121). -/
def execDiskRemoved (t : Nat) (bay : BayNo) (s : State) : Host.Outcome State Fault Refusal :=
  s.event t (diskRemoved bay)

end Sys2Proof.Machine
end

