-- ==== Sys2Proof/Machine/Exchange.lean ====
section
/-! DEFINITION. Machine/Exchange.lean: the commands of the exchange (Chapter 1) and WAKE, each over the shared operations. -/

namespace Sys2Proof.Machine

/-- FRAME_ARRIVAL (R1). -/
def execFrameArrival (t : Nat) (frame : List Byte) (s : State) : Host.Outcome State Fault Refusal :=
  s.event t fun s => (s.takeIn frame, [])

/-- FRAME_DROPPED (R3). -/
def execFrameDropped (t : Nat) (s : State) : Host.Outcome State Fault Refusal :=
  s.event t fun s => (s.dropFrame, [])

/-- ARP_REQUEST (R2). -/
def execArpRequest (t : Nat) (s : State) : Host.Outcome State Fault Refusal :=
  s.event t fun s => (s.answerArp, [])

/-- HELLO (R19). -/
def execHello (t : Nat) (s : State) : Host.Outcome State Fault Refusal :=
  s.message t (isKind .hello) Machine.hello

/-- PAIR_ASK (R12). -/
def execPairAsk (t : Nat) (s : State) : Host.Outcome State Fault Refusal :=
  s.message t (isKind .pairAsk) Machine.pairAsk

/-- PAIR_CONFIRM (R14). -/
def execPairConfirm (t : Nat) (s : State) : Host.Outcome State Fault Refusal :=
  s.message t (isKind .pairConfirm) Machine.pairConfirm

/-- UNPAIR (R15). -/
def execUnpair (t : Nat) (s : State) : Host.Outcome State Fault Refusal :=
  s.message t (isKind .unpair) Machine.unpair

/-- QUERY (R20). -/
def execQuery (t : Nat) (s : State) : Host.Outcome State Fault Refusal :=
  s.message t (isKind .query) Machine.query

/-- WAKE (R172). -/
def execWake (t : Nat) (s : State) : Host.Outcome State Fault Refusal :=
  s.message t (isKind .wake) Machine.wake

/-- TRANSMIT_ARBITER (R17). -/
def execTransmitArbiter (t : Nat) (s : State) : Host.Outcome State Fault Refusal :=
  s.event t fun s => (s.arbitrate, [])

/-- ANNOUNCE_TIMER (R18). -/
def execAnnounceTimer (t : Nat) (s : State) : Host.Outcome State Fault Refusal :=
  s.event t fun s => (s.announceExpiry, [])

/-- PAIRING_WINDOW_EXPIRY (R11). -/
def execPairingWindowExpiry (t : Nat) (s : State) : Host.Outcome State Fault Refusal :=
  s.event t fun s => (s.windowExpiry, [])

/-- PENDING_ASK_EXPIRY (R13). -/
def execPendingAskExpiry (t : Nat) (mac : Mac) (s : State) : Host.Outcome State Fault Refusal :=
  s.event t fun s => (s.askExpiry mac, [])

/-- UNKNOWN_KIND_CODE (R4). -/
def execUnknownKindCode (t : Nat) (s : State) : Host.Outcome State Fault Refusal :=
  s.message t isUnknown unknownKind

end Sys2Proof.Machine
end

