-- ==== Sys2Proof/Machine/Playing.lean ====
section
/-! DEFINITION. Machine/Playing.lean: the commands of stream slots, reports and groups (Chapters 8 and 9), each over the shared operations. -/

namespace Sys2Proof.Machine

/-- A well-formed RATE with this action (R142, R143, R144). -/
def isRate (action : Nat) (m : Msg) : Bool := isKind .rate m && m.body.length = 6 && byteAt m.body 1 = action

/-- A RATE with action 0, and every other RATE that R6 or R141 refuses (assumption log 15). -/
def isJumpFloor (m : Msg) : Bool := isKind .rate m && !(isRate 1 m || isRate 2 m || isRate 3 m || isRate 4 m)

/-- PLAY (R127). -/
def execPlay (t : Nat) (s : State) : Host.Outcome State Fault Refusal :=
  s.message t (isKind .play) Machine.play

/-- RESUME (R149). -/
def execResume (t : Nat) (s : State) : Host.Outcome State Fault Refusal :=
  s.message t (isKind .resume) Machine.resume

/-- JUMP_FLOOR (R142). -/
def execJumpFloor (t : Nat) (s : State) : Host.Outcome State Fault Refusal :=
  s.message t isJumpFloor (rateAction Play.jumpFloor)

/-- JUMP_PEAK (R142). -/
def execJumpPeak (t : Nat) (s : State) : Host.Outcome State Fault Refusal :=
  s.message t (isRate 1) (rateAction Play.jumpPeak)

/-- EASE_FLOOR (R143). -/
def execEaseFloor (t : Nat) (s : State) : Host.Outcome State Fault Refusal :=
  s.message t (isRate 2) (rateAction Play.easeFloor)

/-- EASE_PEAK (R143). -/
def execEasePeak (t : Nat) (s : State) : Host.Outcome State Fault Refusal :=
  s.message t (isRate 3) (rateAction Play.easePeak)

/-- RETUNE (R144). -/
def execRetune (t : Nat) (s : State) : Host.Outcome State Fault Refusal :=
  s.message t (isRate 4) (fun m => rateAction (fun q => q.retune (field m.body 2 4)) m)

/-- RETARGET (R145). -/
def execRetarget (t : Nat) (s : State) : Host.Outcome State Fault Refusal :=
  s.message t (isKind .retarget) Machine.retarget

/-- DROP_NEXT (R146). -/
def execDropNext (t : Nat) (s : State) : Host.Outcome State Fault Refusal :=
  s.message t (isKind .dropNext) Machine.dropNext

/-- STOP (R147). -/
def execStop (t : Nat) (s : State) : Host.Outcome State Fault Refusal :=
  s.message t (isKind .stop) Machine.stop

/-- TAPER_STOP (R148). -/
def execTaperStop (t : Nat) (s : State) : Host.Outcome State Fault Refusal :=
  s.message t (isKind .taperStop) Machine.taperStop

/-- ALL_STOP (R163). -/
def execAllStop (t : Nat) (s : State) : Host.Outcome State Fault Refusal :=
  s.message t (isKind .allStop) Machine.allStop

/-- VIEW_REPORT (R152). -/
def execViewReport (t : Nat) (s : State) : Host.Outcome State Fault Refusal :=
  s.message t (isKind .viewReport) Machine.viewReport

/-- GROUP_CALL (R160). -/
def execGroupCall (t : Nat) (s : State) : Host.Outcome State Fault Refusal :=
  s.message t (isKind .groupCall) Machine.groupCall

/-- HALT_CALL (R162). -/
def execHaltCall (t : Nat) (s : State) : Host.Outcome State Fault Refusal :=
  s.message t (isKind .haltCall) Machine.haltCall

/-- GROUP_GO (R159). -/
def execGroupGo (t : Nat) (s : State) : Host.Outcome State Fault Refusal :=
  s.message t (isKind .groupGo) Machine.groupGo

/-- GROUP_HALT (R161). -/
def execGroupHalt (t : Nat) (s : State) : Host.Outcome State Fault Refusal :=
  s.message t (isKind .groupHalt) Machine.groupHalt

/-- PACING_INTERVAL (R134). -/
def execPacingInterval (t : Nat) (slot : SlotNo) (s : State) : Host.Outcome State Fault Refusal :=
  s.event t (pacingInterval slot)

/-- STALLED_INTERVAL (R136). -/
def execStalledInterval (t : Nat) (slot : SlotNo) (s : State) : Host.Outcome State Fault Refusal :=
  s.event t (stalledInterval slot)

/-- STALL_TIMEOUT (R137). -/
def execStallTimeout (t : Nat) (slot : SlotNo) (s : State) : Host.Outcome State Fault Refusal :=
  s.event t (stallTimeout slot)

/-- RESUME_RECORD_EXPIRY (R140). -/
def execResumeRecordExpiry (t : Nat) (slot : SlotNo) (s : State) : Host.Outcome State Fault Refusal :=
  s.event t (resumeExpiry slot)

/-- PRIMED_TIMEOUT (R158). -/
def execPrimedTimeout (t : Nat) (slot : SlotNo) (s : State) : Host.Outcome State Fault Refusal :=
  s.event t (primedTimeout slot)

end Sys2Proof.Machine
end

