-- ==== Sys2Proof/Machine/Resets.lean ====
section
/-! DEFINITION. Machine/Resets.lean: the commands of the resets and the configuration read, each over the shared operations. -/

namespace Sys2Proof.Machine

/-- COLD_RESET (R186). -/
def execColdReset (t : Nat) (straps : Straps) (present : Vector Bool 4) (s : State) : Host.Outcome State Fault Refusal :=
  s.event t (coldReset straps present)

/-- WARM_RESET (R186). -/
def execWarmReset (t : Nat) (s : State) : Host.Outcome State Fault Refusal :=
  s.event t warmReset

/-- CONFIG_READ_END (R194). -/
def execConfigReadEnd (t : Nat) (answer : Option (List Byte)) (s : State) : Host.Outcome State Fault Refusal :=
  s.event t (configReadEnd answer)

end Sys2Proof.Machine
end

