-- ==== Sys2Proof/Machine/Storing.lean ====
section
/-! DEFINITION. Machine/Storing.lean: the commands of the journal block timer, stripes, the XOR Engine and the DRAM port (Chapters 5, 6 and 11), each over the shared operations. -/

namespace Sys2Proof.Machine

/-- BLOCK_TIMER (R181). -/
def execBlockTimer (t : Nat) (s : State) : Host.Outcome State Fault Refusal :=
  s.event t blockExpiry

/-- CLOSE_TIMER (R98). -/
def execCloseTimer (t : Nat) (s : State) : Host.Outcome State Fault Refusal :=
  s.event t closeExpiry

/-- XOR_JOB_TAKE (R100). -/
def execXorJobTake (t : Nat) (s : State) : Host.Outcome State Fault Refusal :=
  s.event t fun s => (s.takeJob, [])

/-- PARITY_JOB_END (R99). -/
def execParityJobEnd (t : Nat) (s : State) : Host.Outcome State Fault Refusal :=
  s.event t parityJobEnd

/-- RECONSTRUCTION_JOB_END (R108). -/
def execReconstructionJobEnd (t : Nat) (s : State) : Host.Outcome State Fault Refusal :=
  s.event t reconstructionJobEnd

/-- DRAM_TURN_END (R90). -/
def execDramTurnEnd (t : Nat) (s : State) : Host.Outcome State Fault Refusal :=
  s.event t fun s => (s.dramTurn, [])

end Sys2Proof.Machine
end

