-- ==== Sys2Proof/Machine/Timers.lean ====
section
/-! DEFINITION. Machine/Timers.lean: the commands of the Power Unit (Chapter 10), each over the shared operations. -/

namespace Sys2Proof.Machine

/-- BUTTON_LINE_CHANGE (R177). -/
def execButtonLineChange (t : Nat) (button : Button) (pressed : Bool) (s : State) : Host.Outcome State Fault Refusal :=
  s.event t fun s => (s.lineChange button pressed, [])

/-- BUTTON_DEBOUNCE_EXPIRY (R177). -/
def execButtonDebounceExpiry (t : Nat) (button : Button) (s : State) : Host.Outcome State Fault Refusal :=
  s.event t (debounceExpiry button)

/-- DISK_IDLE_TIMER (R167). -/
def execDiskIdleTimer (t : Nat) (s : State) : Host.Outcome State Fault Refusal :=
  s.event t diskIdleExpiry

/-- QUALIFIER_WINDOW_EXPIRY (R171). -/
def execQualifierWindowExpiry (t : Nat) (s : State) : Host.Outcome State Fault Refusal :=
  s.event t fun s => (s.qualifierExpiry, [])

/-- DEEP_IDLE_TIMER (R173). -/
def execDeepIdleTimer (t : Nat) (s : State) : Host.Outcome State Fault Refusal :=
  s.event t deepIdleExpiry

end Sys2Proof.Machine
end

