-- ==== Sys2Proof/Machine/Dispatch.lean ====
section
/-! DEFINITION. Machine/Dispatch.lean: one arm for each command. -/

namespace Sys2Proof.Machine

def exec (i : Instr) (s : State) : Host.Outcome State Fault Refusal :=
  match i with
  | .coldReset t straps present => Sys2Proof.Machine.execColdReset t straps present s
  | .warmReset t => Sys2Proof.Machine.execWarmReset t s
  | .configReadEnd t answer => Sys2Proof.Machine.execConfigReadEnd t answer s
  | .capacityReadEnd t report capacity => Sys2Proof.Machine.execCapacityReadEnd t report capacity s
  | .labelDone t report data => Sys2Proof.Machine.execLabelDone t report data s
  | .frameArrival t frame => Sys2Proof.Machine.execFrameArrival t frame s
  | .frameDropped t => Sys2Proof.Machine.execFrameDropped t s
  | .arpRequest t => Sys2Proof.Machine.execArpRequest t s
  | .hello t => Sys2Proof.Machine.execHello t s
  | .pairAsk t => Sys2Proof.Machine.execPairAsk t s
  | .pairConfirm t => Sys2Proof.Machine.execPairConfirm t s
  | .unpair t => Sys2Proof.Machine.execUnpair t s
  | .query t => Sys2Proof.Machine.execQuery t s
  | .wake t => Sys2Proof.Machine.execWake t s
  | .runOpen t => Sys2Proof.Machine.execRunOpen t s
  | .runClose t => Sys2Proof.Machine.execRunClose t s
  | .runAbort t => Sys2Proof.Machine.execRunAbort t s
  | .offer t => Sys2Proof.Machine.execOffer t s
  | .chunk t => Sys2Proof.Machine.execChunk t s
  | .arrivalTimeout t record => Sys2Proof.Machine.execArrivalTimeout t record s
  | .runIdleTimeout t run => Sys2Proof.Machine.execRunIdleTimeout t run s
  | .checkLaneTake t lane verifyFirst => Sys2Proof.Machine.execCheckLaneTake t lane verifyFirst s
  | .checkResultIngest t lane => Sys2Proof.Machine.execCheckResultIngest t lane s
  | .checkResultVerify t lane => Sys2Proof.Machine.execCheckResultVerify t lane s
  | .objectBegin t => Sys2Proof.Machine.execObjectBegin t s
  | .objectAppend t => Sys2Proof.Machine.execObjectAppend t s
  | .objectFinish t => Sys2Proof.Machine.execObjectFinish t s
  | .objectDelete t => Sys2Proof.Machine.execObjectDelete t s
  | .objectInfo t => Sys2Proof.Machine.execObjectInfo t s
  | .albumCreate t => Sys2Proof.Machine.execAlbumCreate t s
  | .albumAdd t => Sys2Proof.Machine.execAlbumAdd t s
  | .albumRemove t => Sys2Proof.Machine.execAlbumRemove t s
  | .albumDrop t => Sys2Proof.Machine.execAlbumDrop t s
  | .albumList t => Sys2Proof.Machine.execAlbumList t s
  | .play t => Sys2Proof.Machine.execPlay t s
  | .resume t => Sys2Proof.Machine.execResume t s
  | .jumpFloor t => Sys2Proof.Machine.execJumpFloor t s
  | .jumpPeak t => Sys2Proof.Machine.execJumpPeak t s
  | .easeFloor t => Sys2Proof.Machine.execEaseFloor t s
  | .easePeak t => Sys2Proof.Machine.execEasePeak t s
  | .retune t => Sys2Proof.Machine.execRetune t s
  | .retarget t => Sys2Proof.Machine.execRetarget t s
  | .dropNext t => Sys2Proof.Machine.execDropNext t s
  | .stop t => Sys2Proof.Machine.execStop t s
  | .taperStop t => Sys2Proof.Machine.execTaperStop t s
  | .allStop t => Sys2Proof.Machine.execAllStop t s
  | .viewReport t => Sys2Proof.Machine.execViewReport t s
  | .groupCall t => Sys2Proof.Machine.execGroupCall t s
  | .haltCall t => Sys2Proof.Machine.execHaltCall t s
  | .groupGo t => Sys2Proof.Machine.execGroupGo t s
  | .groupHalt t => Sys2Proof.Machine.execGroupHalt t s
  | .transmitArbiter t => Sys2Proof.Machine.execTransmitArbiter t s
  | .announceTimer t => Sys2Proof.Machine.execAnnounceTimer t s
  | .pairingWindowExpiry t => Sys2Proof.Machine.execPairingWindowExpiry t s
  | .pendingAskExpiry t mac => Sys2Proof.Machine.execPendingAskExpiry t mac s
  | .pacingInterval t slot => Sys2Proof.Machine.execPacingInterval t slot s
  | .stalledInterval t slot => Sys2Proof.Machine.execStalledInterval t slot s
  | .stallTimeout t slot => Sys2Proof.Machine.execStallTimeout t slot s
  | .resumeRecordExpiry t slot => Sys2Proof.Machine.execResumeRecordExpiry t slot s
  | .primedTimeout t slot => Sys2Proof.Machine.execPrimedTimeout t slot s
  | .blockTimer t => Sys2Proof.Machine.execBlockTimer t s
  | .closeTimer t => Sys2Proof.Machine.execCloseTimer t s
  | .xorJobTake t => Sys2Proof.Machine.execXorJobTake t s
  | .parityJobEnd t => Sys2Proof.Machine.execParityJobEnd t s
  | .reconstructionJobEnd t => Sys2Proof.Machine.execReconstructionJobEnd t s
  | .dramTurnEnd t => Sys2Proof.Machine.execDramTurnEnd t s
  | .readSlotDone t report data => Sys2Proof.Machine.execReadSlotDone t report data s
  | .writeSlotDone t report => Sys2Proof.Machine.execWriteSlotDone t report s
  | .readJournalDone t report data => Sys2Proof.Machine.execReadJournalDone t report data s
  | .writeJournalDone t report => Sys2Proof.Machine.execWriteJournalDone t report s
  | .spinDownDone t report => Sys2Proof.Machine.execSpinDownDone t report s
  | .commandAttemptFailed t report => Sys2Proof.Machine.execCommandAttemptFailed t report s
  | .commandTimeout t bay => Sys2Proof.Machine.execCommandTimeout t bay s
  | .spinUpReady t bay => Sys2Proof.Machine.execSpinUpReady t bay s
  | .spinUpTimeout t bay => Sys2Proof.Machine.execSpinUpTimeout t bay s
  | .powerCycleOn t bay => Sys2Proof.Machine.execPowerCycleOn t bay s
  | .diskInserted t bay same => Sys2Proof.Machine.execDiskInserted t bay same s
  | .diskRemoved t bay => Sys2Proof.Machine.execDiskRemoved t bay s
  | .buttonLineChange t button pressed => Sys2Proof.Machine.execButtonLineChange t button pressed s
  | .buttonDebounceExpiry t button => Sys2Proof.Machine.execButtonDebounceExpiry t button s
  | .diskIdleTimer t => Sys2Proof.Machine.execDiskIdleTimer t s
  | .qualifierWindowExpiry t => Sys2Proof.Machine.execQualifierWindowExpiry t s
  | .deepIdleTimer t => Sys2Proof.Machine.execDeepIdleTimer t s
  | .unknownKindCode t => Sys2Proof.Machine.execUnknownKindCode t s

end Sys2Proof.Machine
end

