-- ==== Sys2Proof/Safety.lean ====
section
/-! DEFINITION. Safety.lean: what no run of the part may break: DRAM contents stay in their canonical form, and every list of
the part stays within the places the manual gives it. -/

namespace Sys2Proof.Machine

/-- The DRAM contents are canonical, and no list is longer than its places: receive FIFO (R1), control queue (R16), pending
asks (R12), runs (section 4.1), check queue (R75), journal buffer (R88). -/
structure State.Inv (s : State) : Prop where
  staging : s.buf.stagingMem.wf
  cache : s.buf.cacheMem.wf
  places : s.buf.placeMem.wf
  fifo : s.link.fifo.length ≤ Config.fifoPlaces
  control : s.link.control.length ≤ Config.controlPlaces
  asks : s.link.asks.length ≤ Config.askPlaces
  runs : s.ingest.runs.length ≤ Config.runPlaces
  checks : s.ingest.queue.length ≤ Config.checkPlaces
  blocks : s.buf.blocks.length ≤ Config.journalPlaces

/-- A step that answers a next state, and not a fault or a refusal. -/
def Answers (o : Host.Outcome State Fault Refusal) : Prop := ∃ t, o = .next t

/-- Nothing of an earlier command is left over, and time does not run back: what a statement about one command assumes of
the state (assumption logs 1 and 4). -/
structure State.Settled (s : State) (t : Nat) : Prop where
  done : s.unfinished = []
  time : s.now ≤ t

/-- The oldest frame holds this HBX message, and R6 judges it so, at this time. -/
structure State.Brings (s : State) (t : Nat) (m : Msg) (g : Gate) : Prop where
  head : (s.atTime t).headFrame = some (.hbx m)
  gate : (s.atTime t).gate m = g

/-- The state in which a message's block, or its refusal, finds the part: the frame is gone, and R7 and R13 have acted. -/
def State.met (s : State) (t : Nat) (m : Msg) : State :=
  if (s.atTime t).counts m then ((s.atTime t).popFrame.discardAsk m).heard m else (s.atTime t).popFrame.discardAsk m

/-- Two states that agree on all but the Link Front and the clock. -/
structure State.SameBut (s t : State) : Prop where
  index : t.index = s.index
  tables : t.tables = s.tables
  ingest : t.ingest = s.ingest
  buf : t.buf = s.buf
  store : t.store = s.store
  bays : t.bays = s.bays
  labelGen : t.labelGen = s.labelGen
  slots : t.slots = s.slots
  power : t.power = s.power
  journal : t.journal = s.journal
  loader : t.loader = s.loader
  pending : t.pending = s.pending
  unfinished : t.unfinished = s.unfinished
  choices : t.choices = s.choices

end Sys2Proof.Machine
end

