-- ==== Sys2Proof/Certificates/Slice0/Obligations.lean ====
section
/-! DEFINITION. Certificates/Slice0/Obligations.lean: the statements for the provers. `s.Settled t` says that nothing of an
earlier command is left over and time does not run back; `s.Brings t m g` that the oldest frame holds the message `m` and R6
judges it `g`; `s.met t m` is the state that message's block finds. -/

open Sys2Proof Sys2Proof.Machine

/-! ## The queue, the clock, and what no step breaks -/

/-- A step runs the command at the front of the queue on the state with the queue's rest. -/
def Obligations.StepRunsTheFrontCommand : Prop :=
  ∀ (c : Instr) (q : List Instr) (s : State), step { s with pending := c :: q } = exec c { s with pending := q }

/-- No command and no step ever ends in a fault or a refusal (assumption log 3). -/
def Obligations.EveryCommandAnswers : Prop :=
  (∀ (c : Instr) (s : State), Answers (exec c s)) ∧ ∀ s : State, Answers (step s)

/-- The model's choice (assumption log 1): on an empty queue one millisecond passes and nothing else happens; a command leaves
the queue as it is, and moves the clock to its time and never back. -/
def Obligations.QueueAndClockOnlyGoForward : Prop :=
  (∀ s : State, s.pending = [] → step s = .next { s with now := s.now + 1 }) ∧
  ∀ (c : Instr) (s u : State), exec c s = .next u → u.pending = s.pending ∧ u.now = max s.now c.time

/-- Every step keeps the three DRAM contents canonical, and six lists within their places: the receive FIFO, the control queue,
the pending asks, the runs, the check queue and the journal buffer. -/
def Obligations.EveryStepKeepsTheInvariant : Prop :=
  ∀ s u : State, s.Inv → step s = .next u → u.Inv

/-- The command is a COLD reset or the end of the configuration read. -/
def configures : Instr → Bool
  | .coldReset _ _ _ | .configReadEnd _ _ => true
  | _ => false

/-- No other command changes the straps' readings or the configuration image (R193, R194). -/
def Obligations.ConfigurationIsKept : Prop :=
  ∀ (c : Instr) (s u : State), configures c = false → exec c s = .next u →
    u.loader.image = s.loader.image ∧ u.loader.straps = s.loader.straps

/-! ## Resets and configuration -/

/-- What a reset leaves of the tables: nothing (R186, R21, R39, R56, R70, R77, R92, R95, R125, R165, R179). The object id and run
id counters at 1 are the model's choice (assumption log 5, DESIGN CHOICE). -/
structure TablesLost (u : State) : Prop where
  peers : u.link.peers = Vector.replicate 24 none
  fifo : u.link.fifo = []
  asks : u.link.asks = []
  index : u.index = []
  objs : u.tables.objs = []
  counter : u.tables.counter = 1
  albums : u.tables.albums = Vector.replicate 64 none
  runs : u.ingest.runs = []
  runCounter : u.ingest.counter = 1
  arrivals : u.ingest.arrivals = Vector.replicate 32 { gen := 0, use := none }
  checks : u.ingest.queue = []
  pool : u.buf.pool = []
  copies : u.buf.copies = []
  blocks : u.buf.blocks = []
  members : u.store.members = []
  stripes : u.store.table = []
  slots : u.slots = Vector.replicate 8 Slot.reset
  journal : u.journal = Journal.reset
  power : u.power.state = .starting

/-- The state after reset has the invariant that every step keeps, has lost every table and is STARTING (R186); its object id and
run id counters at 1 are the model's choice (assumption log 5). -/
def Obligations.ResetHasTheInvariant : Prop := State.reset.Inv ∧ TablesLost State.reset

/-- COLD reset with the boot flash strapped: the straps are sampled, every table is lost, every bay is off and EMPTY, no
frame is admitted yet, and the configuration is being read (R186, R193, R194); the object id and run id counters at 1 are the
model's choice (assumption log 5). -/
def Obligations.ColdResetWaitsForTheFlash : Prop :=
  ∀ (s : State) (t : Nat) (straps : Straps) (present : Vector Bool 4), s.Settled t → straps.flashPresent = true →
    ∃ u, exec (.coldReset t straps present) s = .next u ∧ TablesLost u ∧ u.loader.straps = straps ∧
      u.loader.settled = false ∧ u.loader.phase = .config ∧ u.link.control = [] ∧ u.now = t ∧
      ∀ b : BayNo, u.bays[b].present = present[b] ∧ u.bays[b].power = false ∧ u.bays[b].state = .empty ∧
        u.bays[b].queue = [] ∧ u.bays[b].flight = none ∧ u.bays[b].faulted = false

/-- COLD reset with the boot flash open: the image takes its defaults within the DRAM budget; where a disk is present the box
is STARTING with one message on its control queue, every bay on, and every present disk spinning up (R186, R187, R194, R196);
the object id and run id counters at 1 are the model's choice (assumption log 5). -/
def Obligations.ColdResetWithoutFlashTakesDefaults : Prop :=
  ∀ (s : State) (t : Nat) (straps : Straps) (present : Vector Bool 4), s.Settled t → straps.flashPresent = false →
    ∃ u, exec (.coldReset t straps present) s = .next u ∧ u.loader.straps = straps ∧
      u.loader.image = budget straps ConfigImage.defaults ∧
      ((∃ b : BayNo, present[b] = true) →
        TablesLost u ∧ u.loader.settled = true ∧ u.link.control.length = 1 ∧
        ∀ b : BayNo, u.bays[b].power = true ∧
          u.bays[b].spin = if present[b] then some { attempt := 1, start := t } else none)

/-- WARM reset: the straps' readings and the configuration image stay, every table is lost, and every bay is off (R186). That a
configuration not yet settled stays unsettled is deduced (assumption log 33), and the object id and run id counters at 1 are the
model's choice (assumption log 5). -/
def Obligations.WarmResetKeepsTheConfiguration : Prop :=
  ∀ (s : State) (t : Nat), s.Settled t →
    ∃ u, exec (.warmReset t) s = .next u ∧ TablesLost u ∧ u.loader.straps = s.loader.straps ∧
      u.loader.image = s.loader.image ∧ u.loader.settled = s.loader.settled ∧ u.loader.cold = false ∧
      ∀ b : BayNo, u.bays[b].present = s.bays[b].present ∧ u.bays[b].power = false ∧ u.bays[b].offSince = some t ∧
        u.bays[b].state = .empty ∧ u.bays[b].queue = [] ∧ u.bays[b].flight = none

/-- The end of the configuration read settles the image by the record and the DRAM budget; once settled, or with no flash
fitted, it changes nothing. A record that is not good, or no answer, gives every default and sets the flag; a good record
clears it (R194, R196). Settling marks the configuration settled, queues the ANNOUNCE of STARTING, and goes on to probing: after
COLD the probes are begun, after WARM, whose bays are being probed already (assumption log 33), they are judged; while a probe
runs, start-up waits for it (R18, R187, R194). That the announce timer starts at the settling is the model's choice (assumption
log 45). -/
def Obligations.ConfigReadSettlesTheImage : Prop :=
  ∀ (s : State) (t : Nat) (answer : Option (List Byte)), s.Settled t →
    ((s.loader.settled = true ∨ s.loader.straps.flashPresent = false) → exec (.configReadEnd t answer) s = .next (s.atTime t)) ∧
    (s.loader.settled = false → s.loader.straps.flashPresent = true →
      let v := { s.atTime t with loader.image := budget s.loader.straps (configOf answer) }
      let starting := { v with loader.settled := true, loader.phase := .probing, power.state := .starting }
      exec (.configReadEnd t answer) s = .next (State.finish (v, [.settle])) ∧
      carryOut .settle v =
        ({ starting.announce with link.announce := some (v.now + 30000) },
         if s.loader.cold then [.startProbes] else [.judgeProbes]) ∧
      ∃ u, exec (.configReadEnd t answer) s = .next u ∧ u.loader.image = budget s.loader.straps (configOf answer) ∧
        ((if s.loader.cold then ∃ b : BayNo, s.bays[b].present = true else ∃ b : BayNo, s.bays[b].probe ≠ none) →
          u.loader.settled = true ∧ u.loader.phase = .probing ∧ u.power.state = .starting ∧
          u.link.control = starting.announce.link.control)) ∧
    configOf none = ConfigImage.defaults ∧ ConfigImage.defaults.defaultsFlag = true ∧
    ∀ b : List Byte, (configGood b = false → configOf (some b) = ConfigImage.defaults) ∧
      (configGood b = true → (configOf (some b)).defaultsFlag = false)

/-- Every field taken from a good record lies in its range: the addresses and the port, the pools and capacities, the times,
counts and switches (R195). -/
def Obligations.ConfigurationFieldsAreInRange : Prop :=
  ∀ b : List Byte, let c := configFields b
    c.mac ≠ 0 ∧ c.mac.getLsbD 40 = false ∧ c.ip ≠ 0 ∧ c.ip ≠ BitVec.allOnes 32 ∧ c.broadcast ≠ 0 ∧ 1 ≤ c.port ∧ c.port ≤ 65535 ∧
    256 ≤ c.stagingPages ∧ c.stagingPages ≤ 8192 ∧ 64 ≤ c.cachePages ∧ c.cachePages ≤ 2048 ∧
    65536 ≤ c.indexCapacity ∧ c.indexCapacity ≤ 8388608 ∧ c.indexCapacity % 65536 = 0 ∧
    4096 ≤ c.objectCapacity ∧ c.objectCapacity ≤ 524288 ∧ c.objectCapacity % 4096 = 0 ∧
    1 ≤ c.diskIdleMin ∧ c.diskIdleMin ≤ 240 ∧ (c.deepIdleMin = 0 ∨ 5 ≤ c.deepIdleMin ∧ c.deepIdleMin ≤ 1440) ∧
    c.qualifierCount ∈ [1, 2, 4, 8, 16, 32, 64, 128] ∧ 10 ≤ c.qualifierWindow ∧ c.qualifierWindow ≤ 600 ∧
    c.qualifierSpacing ≤ 60000 ∧ 50 ≤ c.highWater ∧ c.highWater ≤ 95 ∧ 1 ≤ c.kLock ∧ c.kLock ≤ 15 ∧
    1 ≤ c.kUnlock ∧ c.kUnlock ≤ 15 ∧ c.quotaCap ≤ 8388608 ∧ 30 ≤ c.pairingWindow ∧ c.pairingWindow ≤ 600

/-- Whatever the flash answers, the image the loader settles fits the DRAM the strap allows, and the budget lowers no value
below its minimum nor sets the defaults flag (R196). -/
def Obligations.TheBudgetAlwaysEndsWithAFit : Prop :=
  ∀ (straps : Straps) (answer : Option (List Byte)), let c := budget straps (configOf answer)
    dramNeed c ≤ (if straps.dramGiB then 1024 else 512) * 1048576 ∧
    65536 ≤ c.indexCapacity ∧ 4096 ≤ c.objectCapacity ∧ 256 ≤ c.stagingPages ∧ 64 ≤ c.cachePages ∧
    c.defaultsFlag = (configOf answer).defaultsFlag

/-! ## The exchange (Chapter 1) -/

/-- A frame joins the receive FIFO when the configuration is settled, the port admits it and fewer than 128 are queued; else
it changes nothing (R1). -/
def Obligations.FramesAreAdmittedWithinThePlaces : Prop :=
  ∀ (s : State) (t : Nat) (f : List Byte), s.Settled t →
    exec (.frameArrival t f) s = .next
      (if s.loader.settled = true ∧ frameAdmitted s.loader.image.mac f = true ∧ s.link.fifo.length < 128
        then { s.atTime t with link.fifo := s.link.fifo ++ [f] } else s.atTime t)

/-- An oldest frame that the tests of R1 to R4 drop is taken away and nothing is sent; one that is an ARP request for the box
is answered (R2, R3). -/
def Obligations.FramesAreDroppedOrAnsweredByArp : Prop :=
  ∀ (s : State) (t : Nat), s.Settled t →
    ((s.atTime t).headFrame = some .drop →
      exec (.frameDropped t) s = .next { s.atTime t with link.fifo := s.link.fifo.tail }) ∧
    ∀ (mac : Mac) (ip : Ip), (s.atTime t).headFrame = some (.arp mac ip) →
      exec (.arpRequest t) s = .next (({ s.atTime t with link.fifo := s.link.fifo.tail } : State).send (.arpReply mac ip))

/-- R19. A HELLO, from any station and in every power state but DEEP, is answered with a unicast ANNOUNCE to its source and no
REPLY; in DEEP step 1 of R6 applies to it. -/
def Obligations.HelloIsAnsweredWithAnnounce : Prop :=
  ∀ (s : State) (t : Nat) (m : Msg), s.Settled t → (s.atTime t).headFrame = some (.hbx m) → m.kind = Kind.hello.code →
    m.malformed = false →
    (s.power.state ≠ .deep → exec (.hello t) s = .next
      ((s.met t m).send (.hbx m.src kindAnnounce ((s.met t m).tagOf m.src.mac) 0 0 (s.met t m).announceBody))) ∧
    (s.power.state = .deep → s.peerOf m.src.mac = none → exec (.hello t) s = .next (s.met t m)) ∧
    (s.power.state = .deep → (s.peerOf m.src.mac).isSome = true →
      exec (.hello t) s = .next (State.finish (s.met t m, [.exitDeep .message])))

/-- The row that takes a message of a kind (a RATE by its action). -/
def rowOf (m : Msg) (t : Nat) : Kind → Instr
  | .hello => .hello t | .pairAsk => .pairAsk t | .pairConfirm => .pairConfirm t | .unpair => .unpair t
  | .query => .query t | .wake => .wake t | .runOpen => .runOpen t | .runClose => .runClose t | .runAbort => .runAbort t
  | .offer => .offer t | .chunk => .chunk t | .objectBegin => .objectBegin t | .objectAppend => .objectAppend t
  | .objectFinish => .objectFinish t | .objectDelete => .objectDelete t | .objectInfo => .objectInfo t
  | .albumCreate => .albumCreate t | .albumAdd => .albumAdd t | .albumRemove => .albumRemove t
  | .albumDrop => .albumDrop t | .albumList => .albumList t | .play => .play t | .resume => .resume t
  | .rate => if isRate 1 m then .jumpPeak t else if isRate 2 m then .easeFloor t else if isRate 3 m then .easePeak t
      else if isRate 4 m then .retune t else .jumpFloor t
  | .retarget => .retarget t | .dropNext => .dropNext t | .stop => .stop t | .taperStop => .taperStop t
  | .allStop => .allStop t | .viewReport => .viewReport t | .groupGo => .groupGo t | .groupHalt => .groupHalt t
  | .groupCall => .groupCall t | .haltCall => .haltCall t

/-- A message that R6 refuses with a status is answered by a REPLY of that status, whatever its kind; one it drops is not
answered; one that finds the box in DEEP and comes from an enrolled MAC address is dropped and brings the box out of DEEP, a WAKE
as a WAKE; what R7 and R13 give happens in every case (R6, R7, R176). That a malformed RATE, and one whose action is above 4, is
the row JUMP_FLOOR's is the model's choice (assumption log 15, DESIGN CHOICE). -/
def Obligations.RefusedMessagesGetTheirStatus : Prop :=
  ∀ (s : State) (t : Nat) (m : Msg) (k : Kind), s.Settled t → m.kind = k.code →
    (∀ status, s.Brings t m (.refuse status) → exec (rowOf m t k) s = .next ((s.met t m).reply m status [])) ∧
    (s.Brings t m .drop → exec (rowOf m t k) s = .next (s.met t m)) ∧
    (s.Brings t m .leaveDeep → exec (rowOf m t k) s = .next
      (State.finish (s.met t m, [.exitDeep (if k = .wake then .wake else .message)])))

/-- The order of the checks of R6: DEEP, then STARTING, then form, then an ABSENT store, then the tag, then the role; HELLO and
QUERY pass STARTING and an ABSENT store, and the five kinds without peer tag pass step 5: HELLO, PAIR-ASK and PAIR-CONFIRM from
any sender, GROUP-GO and GROUP-HALT from an enrolled MAC address. That a HELLO or QUERY of any form passes STARTING is deduced, and
that a malformed HELLO outside STARTING and DEEP gets BAD_FORM is the model's choice (assumption log 17). -/
def Obligations.ChecksAreMadeInOrder : Prop :=
  ∀ (s : State) (m : Msg) (k : Kind), m.kind = k.code →
    (s.power.state = .deep → s.gate m = if (s.peerOf m.src.mac).isSome then .leaveDeep else .drop) ∧
    (s.power.state = .starting → k ≠ .hello → k ≠ .query → s.gate m = if k.unanswered then .drop else .refuse stStarting) ∧
    (s.power.state = .starting → (k = .hello ∨ k = .query) → s.gate m = .dispatch) ∧
    (s.power.state ≠ .deep → s.power.state ≠ .starting → m.malformed = false → s.store.cond = some .absent →
      (k = .hello ∨ k = .query) → s.gate m = .dispatch) ∧
    (s.power.state ≠ .deep → s.power.state ≠ .starting → m.malformed = false → s.store.cond ≠ some .absent →
      (k = .hello ∨ k = .pairAsk ∨ k = .pairConfirm) → s.gate m = .dispatch) ∧
    (s.power.state ≠ .deep → s.power.state ≠ .starting → m.malformed = false → s.store.cond ≠ some .absent →
      (k = .groupGo ∨ k = .groupHalt) → s.gate m = if (s.peerOf m.src.mac).isSome then .dispatch else .drop) ∧
    (s.power.state ≠ .deep → s.power.state ≠ .starting → m.malformed = true →
      s.gate m = if k.unanswered then .drop else .refuse stBadForm) ∧
    (s.power.state ≠ .deep → s.power.state ≠ .starting → m.malformed = false → s.store.cond = some .absent →
      k ≠ .hello → k ≠ .query → s.gate m = if k.unanswered then .drop else .refuse stDiskFault) ∧
    (s.power.state ≠ .deep → s.power.state ≠ .starting → m.malformed = false → s.store.cond ≠ some .absent →
      k.tagged = true → s.tagMatches m = false → s.gate m = if k.unanswered then .drop else .refuse stNotPaired) ∧
    (s.power.state ≠ .deep → s.power.state ≠ .starting → m.malformed = false → s.store.cond ≠ some .absent →
      k.tagged = true → s.tagMatches m = true →
      s.gate m = if k.allows (s.senderRoles m) then .dispatch
        else if k.unanswered then .drop else .refuse stNotAllowed)

/-- A PAIR-ASK is refused by the first of the closed window, an enrolled address, roles out of range and four pending asks
that holds; else it is kept pending and answered OK (R12). -/
def Obligations.PairAskIsJudgedInOrder : Prop :=
  ∀ (s : State) (t : Nat) (m : Msg), s.Settled t → s.Brings t m .dispatch → m.kind = Kind.pairAsk.code →
    let u := s.met t m
    let a : Ask :=
      { mac := m.src.mac, roles := m.body.getD 0 0, quota := field m.body 1 4, label := (m.body.drop 5).take 32
        asked := u.now }
    exec (.pairAsk t) s = .next
      (if u.link.window = none then u.reply m stWindowClosed []
       else if (u.peerOf m.src.mac).isSome then u.reply m stDuplicate []
       else if byteAt m.body 0 = 0 ∨ 7 < byteAt m.body 0 then u.reply m stBadRange []
       else if 4 ≤ u.link.asks.length then u.reply m stBusy []
       else ({ u with link.asks := u.link.asks ++ [a] } : State).reply m stOk [])

/-- A PAIR-CONFIRM without an ask gets NO_SUCH; with one and no FREE entry, FULL; else the lowest FREE entry is enrolled with
the counter's tag, or the next not in use where that one is in use (assumption log 16, DEDUCED), and its records and REPLY
follow. The ask is gone in every case (R14). -/
def Obligations.PairConfirmEnrolsTheLowestFreeEntry : Prop :=
  ∀ (s : State) (t : Nat) (m : Msg), s.Settled t → s.Brings t m .dispatch → m.kind = Kind.pairConfirm.code →
    let u := s.met t m
    let v := { u with link.asks := u.link.asks.filter fun b => b.mac ≠ m.src.mac }
    (u.link.asks.find? (fun a => a.mac = m.src.mac) = none → exec (.pairConfirm t) s = .next (u.reply m stNoSuch [])) ∧
    ∀ a, u.link.asks.find? (fun a => a.mac = m.src.mac) = some a →
      (v.link.peers.toList.findIdx? (·.isNone) = none → exec (.pairConfirm t) s = .next (v.reply m stFull [])) ∧
      ∀ n, v.link.peers.toList.findIdx? (·.isNone) = some n →
        let tag := v.takeTag
        let quota := if hasRole a.roles roleContributor then min a.quota v.loader.image.quotaCap else 0
        let p : Peer :=
          { mac := a.mac, last := some (m.src.ip, m.src.port), tag := tag, roles := a.roles, quota := quota, charged := 0
            lastRun := none, lastCounted := none }
        let w := v.setPeer n (some p)
        let x := { w with link.tagCounter := nextTag w.tags 30 tag }
        exec (.pairConfirm t) s = .next (State.finish (x,
          [.append (.peerEnrolled n a.mac tag a.roles quota), .append (.counters 0 0 0),
           .send (x.replyTo m stOk (be 1 n ++ be 4 tag ++ [a.roles] ++ be 4 quota))]))

/-- An UNPAIR of a peer that owns an object, a run, an album or a slot gets BUSY; else its entry becomes FREE, it leaves every
chunk it paid for, its record is appended and the REPLY carries its tag in its body; the header's tag, built once the entry is
gone, is 0 (assumption log 18, DEDUCED) (R15). -/
def Obligations.UnpairFreesTheEntry : Prop :=
  ∀ (s : State) (t : Nat) (m : Msg), s.Settled t → s.Brings t m .dispatch → m.kind = Kind.unpair.code →
    let u := s.met t m
    let n := u.sender m
    (u.ownsAnything n = true → exec (.unpair t) s = .next (u.reply m stBusy [])) ∧
    (u.ownsAnything n = false →
      let tag := ((u.peer n).map (·.tag)).getD 0
      let v := ({ u with index := u.index.map fun e => if e.payer = some n then { e with payer := none } else e } : State).setPeer n none
      exec (.unpair t) s = .next (State.finish (v, [.append (.peerRemoved n tag), .send (v.replyTo m stOk (be 4 tag))])))

/-- A QUERY, an OBJECT-INFO and an ALBUM-LIST are each answered with a REPLY that carries its report, or that refuses an object or
an album there is none of, and change nothing but the Link Front (R20, R46, R54). Of the fields of a QUERY's report, the condition
byte while start-up has not judged the store is assumption log 10, those of an absent member, entry or
last closed run log 18, and the order of the
asks log 38. -/
def Obligations.ReportsChangeOnlyTheLinkFront : Prop :=
  ∀ (s : State) (t : Nat) (m : Msg), s.Settled t → s.Brings t m .dispatch →
    let u := s.met t m
    (∀ status data, u.SameBut (u.reply m status data)) ∧
    (m.kind = Kind.query.code → exec (.query t) s = .next (u.reply m stOk (u.queryReport m))) ∧
    (m.kind = Kind.objectInfo.code →
      (u.obj? (field m.body 0 4) = none → exec (.objectInfo t) s = .next (u.reply m stNoSuch [])) ∧
      ∀ o, u.obj? (field m.body 0 4) = some o →
        exec (.objectInfo t) s = .next (u.reply m stOk (o.report (field m.body 4 2)))) ∧
    (m.kind = Kind.albumList.code →
      (63 < byteAt m.body 0 → exec (.albumList t) s = .next (u.reply m stBadRange [])) ∧
      (byteAt m.body 0 ≤ 63 → u.album? (byteAt m.body 0) = none → exec (.albumList t) s = .next (u.reply m stNoSuch [])) ∧
      ∀ al, byteAt m.body 0 ≤ 63 → u.album? (byteAt m.body 0) = some al →
        exec (.albumList t) s = .next (u.reply m stOk (al.report (field m.body 1 2))))

/-- A WAKE is answered OK with the power state after it: in AWAKE the disk idle timer restarts if running, in QUIET spin-up is
ordered first, in WAKING nothing else happens (R172). -/
def Obligations.WakeIsAnsweredWithThePowerState : Prop :=
  ∀ (s : State) (t : Nat) (m : Msg), s.Settled t → s.Brings t m .dispatch → m.kind = Kind.wake.code →
    let u := s.met t m
    let answer (v : State) := v.reply m stOk [byteOf v.power.state.code]
    (u.power.state = .awake → exec (.wake t) s = .next (answer u.restartDiskIdle)) ∧
    (u.power.state = .waking → exec (.wake t) s = .next (answer u)) ∧
    (u.power.state = .quiet → exec (.wake t) s = .next (State.finish (u, [.orderSpinUp, .answerWake m.src m.seq])))

/-- The transmit arbiter takes the head of the control queue; while that is empty, the head of the send queue of the first slot
with one after the slot it last served (R17). -/
def Obligations.TheArbiterPrefersTheControlQueue : Prop :=
  ∀ (s : State) (t : Nat), s.Settled t →
    (∀ m rest, s.link.control = m :: rest → ∃ u, exec (.transmitArbiter t) s = .next u ∧
      u.link.tx = some (m.frame s.loader.image s.link.ipId) ∧ u.link.control = rest ∧ u.slots = s.slots ∧
      u.link.ipId = if m.isIp then (s.link.ipId + 1) % 65536 else s.link.ipId) ∧
    (∀ i m rest, s.link.control = [] →
      (slotsAfter s.link.lastSlot).find? (fun j => !s.slots[j].sendQueue.isEmpty) = some i →
      s.slots[i].sendQueue = m :: rest → ∃ u, exec (.transmitArbiter t) s = .next u ∧
        u.link.tx = some (m.frame s.loader.image s.link.ipId) ∧ u.link.lastSlot = i ∧ u.slots[i].sendQueue = rest ∧
        u.link.control = [] ∧ ∀ j, j ≠ i → u.slots[j] = s.slots[j]) ∧
    (s.link.control = [] → (∀ i : SlotNo, s.slots[i].sendQueue = []) → exec (.transmitArbiter t) s = .next (s.atTime t))

/-- The timers of the Link Front: an expired announce timer queues an ANNOUNCE and runs anew; an expired pairing window closes
and discards every ask; an ask 10 s old is discarded; before its time none of them does anything (R11, R13, R18). -/
def Obligations.LinkTimersActWhenTheyExpire : Prop :=
  ∀ (s : State) (t : Nat), s.Settled t →
    (∀ e, s.link.announce = some e → e ≤ t → exec (.announceTimer t) s = .next
      { (s.atTime t).announce with link.announce := some (t + 30000) }) ∧
    ((s.link.announce = none ∨ ∃ e, s.link.announce = some e ∧ t < e) → exec (.announceTimer t) s = .next (s.atTime t)) ∧
    (∀ e, s.link.window = some e → e ≤ t →
      exec (.pairingWindowExpiry t) s = .next { s.atTime t with link.window := none, link.asks := [] }) ∧
    ((s.link.window = none ∨ ∃ e, s.link.window = some e ∧ t < e) → exec (.pairingWindowExpiry t) s = .next (s.atTime t)) ∧
    ∀ mac, exec (.pendingAskExpiry t mac) s = .next
      { s.atTime t with link.asks := s.link.asks.filter fun a => !(a.mac = mac && a.asked + 10000 ≤ t) }

/-- A message of a kind outside the table, outside DEEP and STARTING, gets BAD_FORM and changes nothing else but what R13 gives
(R4, R6). -/
def Obligations.UnknownKindsGetBadForm : Prop :=
  ∀ (s : State) (t : Nat) (m : Msg), s.Settled t → (s.atTime t).headFrame = some (.hbx m) → Kind.ofCode m.kind = none →
    s.power.state ≠ .deep → s.power.state ≠ .starting →
    exec (.unknownKindCode t) s = .next (((s.atTime t).popFrame.discardAsk m).reply m stBadForm [])

/-! ## Backup runs, arrivals and checks (Chapter 4) -/

/-- R58. A RUN-OPEN gets BUSY when 8 runs exist, when the sender owns 2, or when every id is in use; else a run record is made
as the rule lists it, with the counter's id, or the next not in use where that one is in use (assumption log 16), the counter
goes on to the next not in use, and the REPLY is OK and carries the id. -/
def Obligations.RunOpenMakesARun : Prop :=
  ∀ (s : State) (t : Nat) (m : Msg), s.Settled t → s.Brings t m .dispatch → m.kind = Kind.runOpen.code →
    let u := s.met t m
    let owner := u.sender m
    let busy := 8 ≤ u.ingest.runs.length ∨ 2 ≤ u.ingest.runs.countP (fun r => r.owner = owner) ∨
      ∀ n, 1 ≤ n → n ≤ 65535 → u.runIdUsed n = true
    let id := u.takeRunId
    let r : Run :=
      { id := id, owner := owner, closing := false, objects := [], inFlight := 0, pendingObjs := 0, mark := none
        heard := u.now, reply := none, reclaimed := false }
    let v : State := { u with ingest.runs := u.ingest.runs ++ [r] }
    (busy → exec (.runOpen t) s = .next (u.reply m stBusy [])) ∧
    (¬ busy → exec (.runOpen t) s = .next (({ v with ingest.counter := v.nextRunId 65535 id } : State).reply m stOk (be 2 id))) ∧
    (u.runIdUsed u.ingest.counter = false → id = u.ingest.counter) ∧
    (¬ busy → 1 ≤ u.ingest.counter → u.ingest.counter ≤ 65535 → u.runIdUsed id = false ∧ 1 ≤ id ∧ id ≤ 65535)

/-- A run ends by its owner's RUN-ABORT, answered after it with the arrivals abandoned and the OPEN objects discarded, or when
300 s pass from the time last heard of an OPEN run; a run of another peer, or none, is refused (R59, R60, R61). -/
def Obligations.RunsEndByAbortOrTimeout : Prop :=
  ∀ (s : State) (t : Nat), s.Settled t →
    (∀ m, s.Brings t m .dispatch → m.kind = Kind.runAbort.code →
      let u := s.met t m
      let id := field m.body 0 2
      (u.run? id = none → exec (.runAbort t) s = .next (u.reply m stNoSuch [])) ∧
      ∀ r, u.run? id = some r →
        (r.owner ≠ u.sender m → exec (.runAbort t) s = .next (u.reply m stNotAllowed [])) ∧
        (r.owner = u.sender m → exec (.runAbort t) s = .next (State.finish (u,
          [.endRun id, .send (u.replyTo m stOk (be 1 (u.receiving id).length ++ be 1 r.objects.length))])))) ∧
    ∀ (id : Nat) (r : Run), s.run? id = some r →
      (r.closing = false → r.heard + 300000 ≤ t → exec (.runIdleTimeout t id) s = .next (State.finish (s.atTime t, [.endRun id]))) ∧
      ((r.closing = true ∨ t < r.heard + 300000) → exec (.runIdleTimeout t id) s = .next (s.atTime t))

/-- A RUN-CLOSE of an OPEN run makes it CLOSING, keeps where its REPLY goes, and discards its OPEN objects; of a CLOSING run it
moves the REPLY; of the sender's last closed run it is answered OK; else it is refused (R56, R62). The order in which the OPEN
objects are discarded is the model's choice (assumption log 38, DESIGN CHOICE). -/
def Obligations.RunCloseDefersItsReply : Prop :=
  ∀ (s : State) (t : Nat) (m : Msg), s.Settled t → s.Brings t m .dispatch → m.kind = Kind.runClose.code →
    let u := s.met t m
    let id := field m.body 0 2
    (u.run? id = none → (u.peer (u.sender m)).bind (·.lastRun) = some id →
      exec (.runClose t) s = .next (u.reply m stOk (be 2 id))) ∧
    (u.run? id = none → (u.peer (u.sender m)).bind (·.lastRun) ≠ some id →
      exec (.runClose t) s = .next (u.reply m stNoSuch [])) ∧
    ∀ r, u.run? id = some r →
      (r.owner ≠ u.sender m → exec (.runClose t) s = .next (u.reply m stNotAllowed [])) ∧
      (r.owner = u.sender m → r.closing = true → exec (.runClose t) s = .next
        (u.updRun id fun r => { r with reply := some { seq := m.seq, addr := m.src } })) ∧
      (r.owner = u.sender m → r.closing = false → exec (.runClose t) s = .next (State.finish
        (u.updRun id fun r => { r with closing := true, reply := some { seq := m.seq, addr := m.src }, reclaimed := false, objects := [] },
         r.objects.map Task.discardObject ++ [.closeZero id])))

/-- An OFFER is judged as a whole; on an OPEN run of the sender it is answered OK with one verdict of three bytes for each item
(R67); an OFFER of one item given SEND takes the lowest free arrival record, has the item's effects, and carries the record's
arrival number (R69). Which FREE pages an item takes is the model's choice (assumption log 12). -/
def Obligations.OffersAreJudgedAsAWhole : Prop :=
  ∀ (s : State) (t : Nat) (m : Msg), s.Settled t → s.Brings t m .dispatch → m.kind = Kind.offer.code →
    let u := s.met t m
    let id := field m.body 0 2
    (u.run? id = none → exec (.offer t) s = .next (u.reply m stNoSuch [])) ∧
    ∀ r, u.run? id = some r →
      (r.owner ≠ u.sender m → exec (.offer t) s = .next (u.reply m stNotAllowed [])) ∧
      (r.owner = u.sender m → r.closing = true → exec (.offer t) s = .next (u.reply m stClosing [])) ∧
      (r.owner = u.sender m → r.closing = false →
        let a := u.offerAll id r.owner (offerItems m.body)
        a.2.2.length = 3 * byteAt m.body 2 ∧
        exec (.offer t) s = .next (State.finish (a.1.reply m stOk (be 1 (byteAt m.body 2) ++ a.2.2), a.2.1)) ∧
        ∀ i k, offerItems m.body = [i] → u.verdict r.owner i = stSend → u.freeArrivalNo = some k →
          let p := u.sendItem id r.owner i k
          (∀ j < k, u.arrival? j ≠ none) ∧ u.arrival? k = none ∧
          exec (.offer t) s = .next (State.finish
            (p.1.reply m stOk (be 1 1 ++ byteOf stSend :: be 2 (u.arrivalNumber k)), p.2)))

/-- The verdict of an offered item, by the first case that holds (R68); and what an item given SEND leaves: its pages RESERVED, its
arrival record RECEIVING with no segment, a new ARRIVING entry charged to the sender or the LOST entry ARRIVING again with its old
location kept, and one arrival more in flight for its run (R22, R28, R69). That the lowest-numbered FREE pages are taken is the
model's choice (assumption log 12, DESIGN CHOICE). -/
def Obligations.OfferVerdictsFollowTheEntry : Prop :=
  (∀ (s : State) (owner : Nat) (i : OfferItem),
    ((i.length = 0 ∨ 1048576 < i.length) → s.verdict owner i = stBadRange) ∧
    (1 ≤ i.length → i.length ≤ 1048576 →
      (s.store.cond = some .broken → s.verdict owner i = stDiskFault) ∧
      (s.store.cond ≠ some .broken →
        (∀ e, s.entry? i.name = some e →
          ((e.state = .staged ∨ e.state = .striping ∨ e.state = .stored) → s.verdict owner i = stHave) ∧
          ((e.state = .arriving ∨ e.state = .checking) → s.verdict owner i = stInflight) ∧
          (e.state = .lost → (e.length ≠ i.length ∨ e.check ≠ i.check) → s.verdict owner i = stBadRange) ∧
          (e.state = .lost → e.length = i.length → e.check = i.check →
            s.verdict owner i = if s.noRoom i then stWait else stSend)) ∧
        (s.entry? i.name = none →
          (s.loader.image.indexCapacity ≤ s.index.length → s.verdict owner i = stFull) ∧
          (s.index.length < s.loader.image.indexCapacity → ∀ p, s.peer owner = some p →
            (p.quota ≤ p.charged → s.verdict owner i = stQuota) ∧
            (p.charged < p.quota → s.verdict owner i = if s.noRoom i then stWait else stSend)))))) ∧
  ∀ (s : State) (run owner : Nat) (i : OfferItem) (k : Fin 32) (p : Peer), s.peer owner = some p →
    let pages := s.pickPages (pagesFor i.length)
    let w := s.sendItem run owner i k
    let a : Arrival :=
      { name := i.name, run := run, owner := owner, ownerTag := p.tag, length := i.length, segments := (i.length + 1023) / 1024
        got := [], check := i.check, last := s.now, checking := false }
    w.1.buf.pool = (s.setPages pages .reserved).buf.pool ∧
    w.1.arrival? k = some a ∧ w.1.arrivalNumber k = s.arrivalNumber k ∧ (∀ j, j ≠ k → w.1.arrival? j = s.arrival? j) ∧
    w.1.ingest.runs = (s.updRun run fun r => { r with inFlight := r.inFlight + 1 }).ingest.runs ∧
    (s.entry? i.name = none →
      w.1.index = s.index ++
        [{ name := i.name, length := i.length, check := i.check, state := .arriving, refcount := 0, payer := some owner
           origin := some run, pages := pages, loc := none, cached := false, mark := false, prior := none }] ∧
      w.1.link = (s.updPeer owner fun p => { p with charged := p.charged + 1 }).link ∧ w.1.store = s.store ∧ w.2 = []) ∧
    (∀ e, s.entry? i.name = some e →
      w.1.index = (s.updEntry i.name fun d =>
        { d with state := .arriving, prior := d.loc, loc := none, pages := pages, origin := some run }).index ∧
      w.1.link = s.link ∧ (e.loc = none → w.2 = [] ∧ w.1.store = s.store) ∧
      (∀ l, e.loc = some l → w.2 = [.judgeStripe l.1] ∧
        w.1.store.table = (s.updStripe l.1 fun r => { r with live := r.live - 1, hold := r.hold + 1 }).store.table)) ∧
    w.1.tables = s.tables ∧ w.1.slots = s.slots ∧ w.1.bays = s.bays ∧ w.1.journal = s.journal ∧ w.1.power = s.power

/-- A CHUNK with no arrival of its number, or that its arrival does not accept, is ignored; an accepted one stores its payload
in its place of the arrival's pages, changes no byte outside it, and joins the received set (R71, R72). The segment that
completes the arrival makes it CHECKING, makes its entry CHECKING, and places its check item on the check queue, or on the wait
list where the queue is full; any other leaves the entries, the queue and the wait list as they are (R23, R72). -/
def Obligations.ChunksAreStoredInTheirPages : Prop :=
  ∀ (s : State) (t : Nat) (m : Msg), s.Settled t → s.Inv → s.Brings t m .dispatch → m.kind = Kind.chunk.code →
    let u := s.met t m
    let i := field m.body 2 2
    let payload := m.body.drop 4
    (u.arrivalOf (field m.body 0 2) = none → exec (.chunk t) s = .next u) ∧
    ∀ k a, u.arrivalOf (field m.body 0 2) = some k → u.arrival? k = some a →
      (a.accepts (u.sender m) i payload.length = false → exec (.chunk t) s = .next u) ∧
      (a.accepts (u.sender m) i payload.length = true →
        let pages := ((u.entry? a.name).map (·.pages)).getD []
        ∃ v, exec (.chunk t) s = .next v ∧
          v.buf.stagingMem = u.buf.stagingMem.putChunk pages (i * 1024) payload ∧
          (∀ c, (∀ j < payload.length, c ≠ pageAddr pages (i * 1024 + j)) → v.buf.stagingMem.read c = u.buf.stagingMem.read c) ∧
          v.buf.cacheMem = u.buf.cacheMem ∧ v.buf.placeMem = u.buf.placeMem ∧
          v.arrival? k = some { a with got := a.got ++ [i], last := u.now, checking := decide (a.got.length + 1 = a.segments) } ∧
          (a.got.length + 1 ≠ a.segments →
            v.index = u.index ∧ v.ingest.queue = u.ingest.queue ∧ v.ingest.checkWait = u.ingest.checkWait) ∧
          (a.got.length + 1 = a.segments →
            let item := CheckItem.ingest (u.arrivalNumber k) a.name a.length pages a.check
            v.index = (u.updEntry a.name fun e => { e with state := .checking }).index ∧
            (u.ingest.queue.length < 48 →
              v.ingest.queue = u.ingest.queue ++ [item] ∧ v.ingest.checkWait = u.ingest.checkWait) ∧
            (48 ≤ u.ingest.queue.length →
              v.ingest.queue = u.ingest.queue ∧ v.ingest.checkWait = u.ingest.checkWait ++ [item])) ∧
          (∀ j, j ≠ k → v.arrival? j = u.arrival? j) ∧ v.ingest.runs = u.ingest.runs ∧ v.tables = u.tables ∧
          v.store = u.store ∧ v.slots = u.slots ∧ v.journal = u.journal ∧ v.link = u.link)

/-- A RECEIVING arrival whose last segment was accepted 10 s ago is abandoned with TIMEOUT; a CHECKING one, or a younger one, is
left (R73). -/
def Obligations.ArrivalsTimeOut : Prop :=
  ∀ (s : State) (t : Nat) (k : Fin 32) (a : Arrival), s.Settled t → s.arrival? k = some a →
    (a.checking = false → a.last + 10000 ≤ t →
      exec (.arrivalTimeout t k) s = .next (State.finish (s.atTime t, [.abandonArrival k .timeout]))) ∧
    ((a.checking = true ∨ t < a.last + 10000) → exec (.arrivalTimeout t k) s = .next (s.atTime t))

/-- An idle lane takes the head of the check queue, and its freed place goes to a waiting item; a lane's result is the body
check of its pages' bytes: an arrival that matches is taken and one that does not is abandoned; a copy that matches is
verified, one that does not is repaired (R72, R75, R76, R85). In DEEP, where the engines are stopped, none of them does anything
(R168; assumption log 46). -/
def Obligations.CheckLanesReportTheBodyCheck : Prop :=
  (∀ (s : State) (t : Nat) (l : Fin 2) (v : Bool), s.Settled t → s.power.state = .deep →
    exec (.checkLaneTake t l v) s = .next (s.atTime t) ∧ exec (.checkResultIngest t l) s = .next (s.atTime t) ∧
    exec (.checkResultVerify t l) s = .next (s.atTime t)) ∧
  ∀ (s : State) (t : Nat) (l : Fin 2), s.Settled t → s.power.state ≠ .deep →
    (∀ i is v, s.ingest.lanes[l] = none → s.ingest.queue = i :: is → ∃ u, exec (.checkLaneTake t l v) s = .next u ∧
      u.ingest.lanes[l] = some i ∧
      (s.ingest.checkWait = [] → s.buf.verifyWait = [] → u.ingest.queue = is) ∧
      (∀ j js, s.ingest.checkWait = j :: js → s.buf.verifyWait = [] → u.ingest.queue = is ++ [j] ∧ u.ingest.checkWait = js) ∧
      (∀ j js, s.ingest.checkWait = [] → s.buf.verifyWait = j :: js → u.ingest.queue = is ++ [j] ∧ u.buf.verifyWait = js)) ∧
    (∀ number name length pages check k, s.ingest.lanes[l] = some (.ingest number name length pages check) →
      s.arrivalOf number = some k →
      let u := { s.atTime t with ingest.lanes := s.ingest.lanes.set l none }
      (bodyCheck (s.buf.stagingMem.chunkBytes pages 0 length) = check →
        exec (.checkResultIngest t l) s = .next (State.finish (u, [.checked name, .freeArrival k]))) ∧
      (bodyCheck (s.buf.stagingMem.chunkBytes pages 0 length) ≠ check →
        exec (.checkResultIngest t l) s = .next (State.finish (u, [.abandonArrival k .badBody])))) ∧
    (∀ id name length pages check c, s.ingest.lanes[l] = some (.verify id name length pages check) → s.copy? id = some c →
      c.stage = .checking →
      let u := { s.atTime t with ingest.lanes := s.ingest.lanes.set l none }
      (bodyCheck (s.buf.cacheMem.chunkBytes pages 0 length) = check →
        exec (.checkResultVerify t l) s = .next (State.finish (u, [.verified id]))) ∧
      (bodyCheck (s.buf.cacheMem.chunkBytes pages 0 length) ≠ check → c.drop = false →
        exec (.checkResultVerify t l) s = .next (State.finish (u.updCopy id fun c => { c with stage := .repairing }, [.repair id]))))

/-! ## Objects and albums (Chapter 3) -/

/-- An OBJECT-BEGIN makes a new OPEN object listed in its run, with the counter's id, or the next not in use where that one is in
use (assumption log 16, DEDUCED), and the counter goes on to the next value not in use; or it is refused in the order of R41 (R40,
R41). -/
def Obligations.ObjectBeginTakesTheCounter : Prop :=
  ∀ (s : State) (t : Nat) (m : Msg), s.Settled t → s.Brings t m .dispatch → m.kind = Kind.objectBegin.code →
    let u := s.met t m
    (u.run? (field m.body 0 2) = none → exec (.objectBegin t) s = .next (u.reply m stNoSuch [])) ∧
    ∀ r, u.run? (field m.body 0 2) = some r →
      (r.owner ≠ u.sender m → exec (.objectBegin t) s = .next (u.reply m stNotAllowed [])) ∧
      (r.owner = u.sender m → r.closing = true → exec (.objectBegin t) s = .next (u.reply m stClosing [])) ∧
      (r.owner = u.sender m → r.closing = false → 16 ≤ r.objects.length → exec (.objectBegin t) s = .next (u.reply m stBusy [])) ∧
      (r.owner = u.sender m → r.closing = false → r.objects.length < 16 →
        u.loader.image.objectCapacity ≤ u.tables.objs.length → exec (.objectBegin t) s = .next (u.reply m stFull [])) ∧
      (r.owner = u.sender m → r.closing = false → r.objects.length < 16 →
        u.tables.objs.length < u.loader.image.objectCapacity →
        let id := u.takeObjectId
        let o : Obj := { id := id, owner := u.sender m, state := .opened, run := some r.id,
                         caption := (m.body.drop 3).take (byteAt m.body 2), names := [], total := 0, albumCount := 0,
                         playCount := 0, pending := false, recorded := false }
        let used := (u.tables.objs ++ [o]).map (·.id)
        (u.obj? u.tables.counter = none → id = u.tables.counter) ∧
        (1 ≤ u.tables.counter → u.tables.counter ≤ 4294967295 → u.tables.objs.length < 4294967295 →
          u.obj? id = none ∧ 1 ≤ id ∧ id ≤ 4294967295) ∧
        ∃ v : State, exec (.objectBegin t) s = .next (v.reply m stOk (be 4 id)) ∧ v.tables.objs = u.tables.objs ++ [o] ∧
          v.tables.counter = nextObjectId used (used.length + 1) id ∧
          (1 ≤ id → id ≤ 4294967295 → used.length < 4294967295 →
            v.tables.counter ∉ used ∧ 1 ≤ v.tables.counter ∧ v.tables.counter ≤ 4294967295) ∧
          v.ingest.runs = (u.updRun r.id fun r => { r with objects := r.objects ++ [id] }).ingest.runs ∧
          v.index = u.index ∧ v.link = u.link ∧ v.slots = u.slots ∧ v.buf = u.buf ∧ v.store = u.store ∧ v.journal = u.journal)

/-- An OBJECT-APPEND to an OPEN object of the sender takes its names one at a time until one stops it, and its REPLY carries how
many were taken; else it is refused. A name is stopped by a full list, a full list region, an entry that is missing or one at its
refcount limit, in this order; else its entry is counted and it joins the list (R29, R42). That the
staged list is walked once after all names is the model's choice (assumption log 42). -/
def Obligations.ObjectAppendTakesNamesInOrder : Prop :=
  (∀ (s : State) (o : Obj) (n : Name),
    (16384 ≤ o.names.length → s.appendStop o n = some stBadRange) ∧
    (o.names.length < 16384 →
      (4194304 ≤ s.regionUsed → s.appendStop o n = some stFull) ∧
      (s.regionUsed < 4194304 →
        (s.entry? n = none → s.appendStop o n = some stMissing) ∧
        ∀ e, s.entry? n = some e →
          ((e.state = .arriving ∨ e.state = .checking) → s.appendStop o n = some stMissing) ∧
          (e.state ≠ .arriving → e.state ≠ .checking →
            (65535 ≤ e.refcount → s.appendStop o n = some stRefLimit) ∧
            (e.refcount < 65535 → s.appendStop o n = none))))) ∧
  (∀ (s : State) (id k : Nat), s.takeNames id k [] = (s, k, stOk)) ∧
  (∀ (s : State) (id k : Nat) (n : Name) (ns : List Name) (o : Obj), s.obj? id = some o →
    (∀ status, s.appendStop o n = some status → s.takeNames id k (n :: ns) = (s, k, status)) ∧
    ∀ e, s.appendStop o n = none → s.entry? n = some e →
      let counted := s.updEntry n fun e =>
        { e with refcount := e.refcount + 1, origin := if e.state = .staged then none else e.origin }
      let v := counted.updObj id fun o => { o with names := o.names ++ [n], total := o.total + e.length }
      s.takeNames id k (n :: ns) = v.takeNames id (k + 1) ns) ∧
  ∀ (s : State) (t : Nat) (m : Msg), s.Settled t → s.Brings t m .dispatch → m.kind = Kind.objectAppend.code →
    let u := s.met t m
    let id := field m.body 0 4
    (u.obj? id = none → exec (.objectAppend t) s = .next (u.reply m stNoSuch [])) ∧
    ∀ o, u.obj? id = some o →
      (o.owner ≠ u.sender m → exec (.objectAppend t) s = .next (u.reply m stNotAllowed [])) ∧
      (o.owner = u.sender m → o.state = .complete → exec (.objectAppend t) s = .next (u.reply m stNotAllowed [])) ∧
      (o.owner = u.sender m → o.state = .retired → exec (.objectAppend t) s = .next (u.reply m stRetired [])) ∧
      (o.owner = u.sender m → o.state = .opened →
        let a := u.takeNames id 0 (appendNames m.body)
        exec (.objectAppend t) s = .next (State.finish
          (a.1.reply m a.2.2 (be 1 a.2.1 ++ be 2 (((a.1.obj? id).map fun o => o.names.length).getD 0)),
           if u.risen a.1 then [.walk] else [])))

/-- An OBJECT-FINISH of an OPEN object that lists a chunk makes it COMPLETE: where every entry is settled it leaves its run, is
answered, and its records are given; else it is journal-pending; a COMPLETE one is answered again; else it is refused (R43,
R44). That the REPLY comes before the records is the model's choice (assumption log 42). -/
def Obligations.ObjectFinishCompletes : Prop :=
  ∀ (s : State) (t : Nat) (m : Msg), s.Settled t → s.Brings t m .dispatch → m.kind = Kind.objectFinish.code →
    let u := s.met t m
    let id := field m.body 0 4
    (u.obj? id = none → exec (.objectFinish t) s = .next (u.reply m stNoSuch [])) ∧
    ∀ o, u.obj? id = some o →
      (o.owner ≠ u.sender m → exec (.objectFinish t) s = .next (u.reply m stNotAllowed [])) ∧
      (o.owner = u.sender m → o.state = .retired → exec (.objectFinish t) s = .next (u.reply m stRetired [])) ∧
      (o.owner = u.sender m → o.state = .complete → exec (.objectFinish t) s = .next (u.reply m stOk (finishData o))) ∧
      (o.owner = u.sender m → o.state = .opened → o.names = [] → exec (.objectFinish t) s = .next (u.reply m stBadRange [])) ∧
      (o.owner = u.sender m → o.state = .opened → o.names ≠ [] → (∀ n ∈ o.names, u.settled n = true) →
        let v := (u.complete o).updObj id fun o => { o with run := none }
        exec (.objectFinish t) s = .next (State.finish (v.reply m stOk (finishData o), [.objectRecords id o.run]))) ∧
      (o.owner = u.sender m → o.state = .opened → o.names ≠ [] → (∃ n ∈ o.names, u.settled n = false) →
        exec (.objectFinish t) s = .next (((u.complete o).makePending o).reply m stOk (finishData { o with pending := true })))

/-- An OBJECT-DELETE of a COMPLETE object of the sender removes it when no album and no play holds it, else retires it, with
its record if it is recorded; the REPLY says which; one that is journal-pending first has the flag cleared, its run has one pending
object fewer and may complete its close (R44, R47, R48). The order of the REPLYs, and of the REPLY and the records, is the model's
choice (assumption log 42). -/
def Obligations.ObjectDeleteRemovesOrRetires : Prop :=
  ∀ (s : State) (t : Nat) (m : Msg), s.Settled t → s.Brings t m .dispatch → m.kind = Kind.objectDelete.code →
    let u := s.met t m
    let id := field m.body 0 4
    (u.obj? id = none → exec (.objectDelete t) s = .next (u.reply m stNoSuch [])) ∧
    ∀ o, u.obj? id = some o →
      (o.state = .opened → exec (.objectDelete t) s = .next (u.reply m stNoSuch [])) ∧
      (o.state ≠ .opened → o.owner ≠ u.sender m → exec (.objectDelete t) s = .next (u.reply m stNotAllowed [])) ∧
      (o.state = .retired → o.owner = u.sender m → exec (.objectDelete t) s = .next (u.reply m stRetired [])) ∧
      (o.state = .complete → o.owner = u.sender m → o.pending = false → o.albumCount + o.playCount = 0 →
        exec (.objectDelete t) s = .next (State.finish (u, [.removeObject id, .send (u.replyTo m stOk [0])]))) ∧
      (o.state = .complete → o.owner = u.sender m → o.pending = false → o.albumCount + o.playCount ≠ 0 →
        let v := u.updObj id fun o => { o with state := .retired }
        exec (.objectDelete t) s = .next (State.finish (v,
          (if o.recorded then [.append (.objectRetired id)] else []) ++ [.send (v.replyTo m stOk [1])]))) ∧
      (o.state = .complete → o.owner = u.sender m → o.pending = true → ∀ r, o.run = some r →
        let v := (u.updObj id fun o => { o with pending := false, run := none }).updRun r fun r =>
          { r with pendingObjs := r.pendingObjs - 1 }
        let w := v.updObj id fun o => { o with state := .retired }
        (o.albumCount + o.playCount = 0 → exec (.objectDelete t) s = .next (State.finish (v,
          [.judgeClose r, .removeObject id, .send (v.replyTo m stOk [0])]))) ∧
        (o.albumCount + o.playCount ≠ 0 → exec (.objectDelete t) s = .next (State.finish (w,
          [.judgeClose r] ++ (if o.recorded then [.append (.objectRetired id)] else []) ++ [.send (w.replyTo m stOk [1])]))))

/-- R50. An ALBUM-CREATE gets BUSY when every album is IN_USE; else the lowest-numbered FREE album is the sender's, with the label
and no entries, its record is appended, and the REPLY is OK with its id. -/
def Obligations.AlbumCreateTakesTheLowestFree : Prop :=
  ∀ (s : State) (t : Nat) (m : Msg), s.Settled t → s.Brings t m .dispatch → m.kind = Kind.albumCreate.code →
    let u := s.met t m
    ((∀ a < 64, (u.album? a).isSome = true) → exec (.albumCreate t) s = .next (u.reply m stBusy [])) ∧
    ∀ a, a < 64 → u.album? a = none → (∀ b < a, (u.album? b).isSome = true) →
      let label := m.body.take 32
      let v := u.setAlbum a (some { owner := u.sender m, label := label, entries := [] })
      exec (.albumCreate t) s = .next (State.finish (v, [.append (.albumMade a (u.sender m) label), .send (v.replyTo m stOk (be 1 a))]))

/-- ALBUM-ADD, ALBUM-REMOVE and ALBUM-DROP: their refusals, those of an ALBUM-ADD in their order, and else the entry put in at its position, taken out, or every entry
taken out in order, each with its record and REPLY (R51, R52, R53). -/
def Obligations.AlbumEntriesComeAndGo : Prop :=
  ∀ (s : State) (t : Nat) (m : Msg), s.Settled t → s.Brings t m .dispatch →
    let u := s.met t m
    let a := byteAt m.body 0
    let id := field m.body 1 4
    (m.kind = Kind.albumAdd.code →
      (63 < a → u.addRefusal a id = some stBadRange) ∧
      (a ≤ 63 → u.album? a = none → u.addRefusal a id = some stNoSuch) ∧
      (∀ al, a ≤ 63 → u.album? a = some al →
        (u.obj? id = none → u.addRefusal a id = some stNoSuch) ∧
        ∀ o, u.obj? id = some o →
          ((o.state = .opened ∨ o.state = .complete ∧ o.pending = true) → u.addRefusal a id = some stNotComplete) ∧
          (o.state = .retired → u.addRefusal a id = some stRetired) ∧
          (o.state = .complete → o.pending = false →
            (id ∈ al.entries → u.addRefusal a id = some stDuplicate) ∧
            (id ∉ al.entries → 2048 ≤ al.entries.length → u.addRefusal a id = some stFull) ∧
            (id ∉ al.entries → al.entries.length < 2048 → u.addRefusal a id = none))) ∧
      (∀ status, u.addRefusal a id = some status → exec (.albumAdd t) s = .next (u.reply m status [])) ∧
      (∀ al, u.addRefusal a id = none → u.album? a = some al →
        let p := min (field m.body 5 2) al.entries.length
        let v := (u.setAlbum a (some { al with entries := al.entries.take p ++ [id] ++ al.entries.drop p })).updObj id
          fun o => { o with albumCount := o.albumCount + 1 }
        exec (.albumAdd t) s = .next (State.finish (v,
          [.append (.albumEntryAdded a id p), .send (v.replyTo m stOk (be 2 p ++ be 2 (al.entries.length + 1)))])))) ∧
    (m.kind = Kind.albumRemove.code →
      (63 < a → exec (.albumRemove t) s = .next (u.reply m stBadRange [])) ∧
      (a ≤ 63 → u.album? a = none → exec (.albumRemove t) s = .next (u.reply m stNoSuch [])) ∧
      ∀ al, a ≤ 63 → u.album? a = some al →
        (id ∉ al.entries → exec (.albumRemove t) s = .next (u.reply m stNoSuch [])) ∧
        ∀ p, al.entries.findIdx? (· = id) = some p →
          let v := u.setAlbum a (some { al with entries := al.entries.eraseIdx p })
          exec (.albumRemove t) s = .next (State.finish (v, [.append (.albumEntryRemoved a p), .albumFall id,
            .send (v.replyTo m stOk (be 2 p ++ be 2 (al.entries.eraseIdx p).length))]))) ∧
    (m.kind = Kind.albumDrop.code →
      (63 < a → exec (.albumDrop t) s = .next (u.reply m stBadRange [])) ∧
      (a ≤ 63 → u.album? a = none → exec (.albumDrop t) s = .next (u.reply m stNoSuch [])) ∧
      ∀ al, a ≤ 63 → u.album? a = some al →
        (al.owner ≠ u.sender m → exec (.albumDrop t) s = .next (u.reply m stNotAllowed [])) ∧
        (al.owner = u.sender m → exec (.albumDrop t) s = .next (State.finish (u,
          [.append (.albumDropped a)] ++ al.entries.flatMap (fun id => [Task.takeEntry a, .albumFall id]) ++
            [.freeAlbum a, .send (u.replyTo m stOk (be 2 al.entries.length))]))))

/-! ## Stream slots, reports and groups (Chapters 8 and 9) -/

/-- A PLAY out of range gets BAD_RANGE; a slot it may not have, the refusal of its step; an object that grants no claim, that
answer; a start at or past the object's end, BAD_RANGE; else its object's play count rises and its record becomes current in an
IDLE slot, or next in another (R49, R126, R127, R128). "Any" takes the lowest IDLE slot with no owner and no resume record, else
the one whose resume record is oldest, else gets BUSY (R128). That the window fills before the REPLY is queued is the model's
choice (assumption log 42). -/
def Obligations.PlayIsJudgedInOrder : Prop :=
  (∀ (s : State) (n sender : Nat),
    let bare (i : SlotNo) := s.slots[i].state = .idle ∧ s.slots[i].owner = none ∧ s.slots[i].resume = none
    (∀ i : SlotNo, n = i.val →
      ((∃ o, s.slots[i].owner = some o ∧ o ≠ sender) → s.playSlot n sender = .error stNotAllowed) ∧
      ((s.slots[i].owner = none ∨ s.slots[i].owner = some sender) →
        (s.slots[i].state ≠ .idle → s.slots[i].next ≠ none → s.playSlot n sender = .error stNextFull) ∧
        ((s.slots[i].state = .idle ∨ s.slots[i].next = none) → s.playSlot n sender = .ok i))) ∧
    (7 < n → ∀ i : SlotNo, bare i → (∀ j < i, ¬ bare j) → s.playSlot n sender = .ok i) ∧
    (7 < n → (∀ j : SlotNo, ¬ bare j) →
      (∀ (i : SlotNo) (r : Resume), s.slots[i].state = .idle → s.slots[i].resume = some r →
        (∀ (j : SlotNo) (q : Resume), s.slots[j].state = .idle → s.slots[j].resume = some q →
          r.made ≤ q.made ∧ (j < i → r.made < q.made)) → s.playSlot n sender = .ok i) ∧
      ((∀ j : SlotNo, s.slots[j].state = .idle → s.slots[j].resume = none) → s.playSlot n sender = .error stBusy))) ∧
  (∀ (s : State) (id : Nat),
    (s.obj? id = none → s.claimRefusal id = some stNoSuch) ∧
    ∀ o, s.obj? id = some o →
      (o.state = .opened → s.claimRefusal id = some stNotComplete) ∧
      (o.state = .retired → s.claimRefusal id = some stRetired) ∧
      (o.state = .complete → s.claimRefusal id = none)) ∧
  ∀ (s : State) (t : Nat) (m : Msg), s.Settled t → s.Brings t m .dispatch → m.kind = Kind.play.code →
    let u := s.met t m
    let n := byteAt m.body 0
    let id := field m.body 1 4
    let bad := (7 < n ∧ n ≠ 0xFF) ∨ playRefused m.body = true
    (bad → exec (.play t) s = .next (u.reply m stBadRange [])) ∧
    (∀ status, ¬ bad → u.playSlot n (u.sender m) = .error status → exec (.play t) s = .next (u.reply m status [])) ∧
    ∀ i, ¬ bad → u.playSlot n (u.sender m) = .ok i →
      (∀ status, u.claimRefusal id = some status → exec (.play t) s = .next (u.reply m status [])) ∧
      ∀ o, u.claimRefusal id = none → u.obj? id = some o →
        (o.total ≤ field m.body 5 8 → exec (.play t) s = .next (u.reply m stBadRange [])) ∧
        (field m.body 5 8 < o.total →
          let v := u.updObj id fun o => { o with playCount := o.playCount + 1 }
          let r := playTransfer m.body o.total
          let owner := if 7 < n then some (u.sender m) else some (u.slots[i].owner.getD (u.sender m))
          let tag := nextSlotTag u.slots[i].tagCounter
          (u.slots[i].state = .idle → ∃ y : Slot,
            exec (.play t) s = .next (State.finish (v.updSlot i fun _ => y,
              releaseTasks (u.slots[i].resume.toList.map fun q => q.xfer.obj) ++
                [.fill i, .send (v.replyTo m stOk (playData i (placement r) tag r))])) ∧
            y.cur = some { xfer := r, tag := tag, nextDropped := false } ∧ y.tagCounter = tag ∧ y.resume = none ∧
            y.next = u.slots[i].next ∧ y.owner = owner ∧ y.ret = some m.src ∧ y.window = [] ∧
            y.sendQueue = u.slots[i].sendQueue ∧
            (r.group = 0 → y.state = .running ∧ y.interval = some (u.now + 1) ∧ y.tracker = some Tracker.fresh) ∧
            (r.group ≠ 0 → y.state = .primed ∧ y.primedAt = some u.now)) ∧
          (u.slots[i].state ≠ .idle →
            exec (.play t) s = .next (State.finish
              (v.updSlot i fun x => { x with ret := some m.src, owner := owner, next := some r },
               [.send (v.replyTo m stOk (playData i 2 0 r))]))))

/-- A RESUME is refused by the first check that fails; else the resume record, cut to what was left, becomes current with a new
tag, the window fills and the REPLY says where it goes on (R141, R149). That the fill comes before the REPLY is the model's choice
(assumption log 42). -/
def Obligations.ResumeGoesOnWhereItStopped : Prop :=
  ∀ (s : State) (t : Nat) (m : Msg), s.Settled t → s.Brings t m .dispatch → m.kind = Kind.resume.code →
    let u := s.met t m
    (7 < byteAt m.body 0 → exec (.resume t) s = .next (u.reply m stBadRange [])) ∧
    ∀ i : SlotNo, byteAt m.body 0 = i.val →
      let x := u.slots[i]
      let bare := x.state = .idle ∧ x.resume = none
      (¬ bare → x.owner ≠ some (u.sender m) → exec (.resume t) s = .next (u.reply m stNotAllowed [])) ∧
      ((bare ∨ x.owner = some (u.sender m)) →
        (resumeRefused m.body = true → exec (.resume t) s = .next (u.reply m stBadRange [])) ∧
        (resumeRefused m.body = false → x.state ≠ .idle → exec (.resume t) s = .next (u.reply m stBusy [])) ∧
        (resumeRefused m.body = false → bare → exec (.resume t) s = .next (u.reply m stNoSuch [])) ∧
        ∀ r, resumeRefused m.body = false → x.state = .idle → x.resume = some r →
          let next := r.restart m.body
          let y := ({ x with resume := none, ret := some m.src } : Slot).become next u.now
          next.start = r.xfer.start + r.sent ∧ next.length = r.xfer.length - r.sent ∧
          exec (.resume t) s = .next (State.finish (u.updSlot i fun _ => y,
            [.fill i, .send ((u.updSlot i fun _ => y).replyTo m stOk
              (be 2 y.tagCounter ++ be 8 next.start ++ be 8 next.length ++ be 1 (placement next)))])))

/-- The row of a RATE by its action, and what the action does to the pacing. -/
def rateRows (m : Msg) (t : Nat) : List (Nat × Instr × (Play → Play)) :=
  [(0, .jumpFloor t, Play.jumpFloor), (1, .jumpPeak t, Play.jumpPeak), (2, .easeFloor t, Play.easeFloor),
   (3, .easePeak t, Play.easePeak), (4, .retune t, fun q => q.retune (field m.body 2 4))]

/-- A RATE is judged against its slot, its action and its state; on a running transfer with no taper stop its action, and then the
cap check, move the pacing, and the REPLY gives rate, phase, peak and pending peak (R141 to R144, R155). That the row JUMP_FLOOR
refuses a RATE whose action is above 4 is the model's choice (assumption log 15, DESIGN CHOICE). -/
def Obligations.RateActionsMoveThePacer : Prop :=
  ∀ (s : State) (t : Nat) (m : Msg), s.Settled t → s.Brings t m .dispatch → m.kind = Kind.rate.code → m.body.length = 6 →
    let u := s.met t m
    (4 < byteAt m.body 1 →
      (7 < byteAt m.body 0 → exec (.jumpFloor t) s = .next (u.reply m stBadRange [])) ∧
      ∀ i : SlotNo, byteAt m.body 0 = i.val →
        (u.slots[i].owner ≠ some (u.sender m) → exec (.jumpFloor t) s = .next (u.reply m stNotAllowed [])) ∧
        (u.slots[i].owner = some (u.sender m) → exec (.jumpFloor t) s = .next (u.reply m stBadRange []))) ∧
    ∀ row ∈ rateRows m t, byteAt m.body 1 = row.1 →
      (7 < byteAt m.body 0 → exec row.2.1 s = .next (u.reply m stBadRange [])) ∧
      ∀ i : SlotNo, byteAt m.body 0 = i.val →
        (u.slots[i].owner ≠ some (u.sender m) → exec row.2.1 s = .next (u.reply m stNotAllowed [])) ∧
        (u.slots[i].owner = some (u.sender m) →
          (u.slots[i].runs = false → exec row.2.1 s = .next (u.reply m stNotRunning [])) ∧
          ∀ q, u.slots[i].runs = true → u.slots[i].play? = some q →
            (q.p.taperStop = true → exec row.2.1 s = .next (u.reply m stBusy [])) ∧
            (q.p.taperStop = false →
              let r := (row.2.2 q).capCheck
              exec row.2.1 s = .next ((u.updSlot i fun x => x.setPlay r).reply m stOk
                (be 4 r.p.rate ++ be 1 r.p.phase.code ++ be 4 r.x.peak ++ be 4 (r.p.pendingPeak.getD 0)))))

/-- What the rate actions leave: JUMP-FLOOR the floor rate in FLOOR under STEADY-FLOOR, JUMP-PEAK the ceiling in PEAK under
STEADY-PEAK, with a pending peak first in force; EASE-FLOOR and EASE-PEAK move no rate and go SHAPED; a RETUNE below the rate
waits as pending peak, and one at or above it is in force (R142, R143, R144). -/
def Obligations.RateActionsDoWhatTheyName : Prop :=
  ∀ q : Play,
    (q.jumpFloor.p.rate = q.x.floor ∧ q.jumpFloor.p.phase = .floor ∧ q.jumpFloor.x.profile = .steadyFloor ∧
      q.jumpFloor.p.pendingPeak = none ∧ q.jumpFloor.x.peak = q.p.pendingPeak.getD q.x.peak) ∧
    (q.jumpPeak.p.rate = q.forcePeak.ceiling ∧ q.jumpPeak.p.phase = .peak ∧ q.jumpPeak.x.profile = .steadyPeak ∧
      q.jumpPeak.p.pendingPeak = none ∧ q.jumpPeak.x.peak = q.p.pendingPeak.getD q.x.peak) ∧
    (q.easeFloor.p.rate = q.p.rate ∧ q.easeFloor.x.profile = .shaped ∧
      q.easeFloor.p.phase = if q.p.rate = q.x.floor then .floor else .falling) ∧
    (q.easePeak.p.rate = q.p.rate ∧ q.easePeak.x.profile = .shaped ∧
      q.easePeak.p.phase = if q.p.pendingPeak = none then .rising else .falling) ∧
    ∀ peak, let k := max q.x.floor (max 8 (min 100000 peak))
      (k < q.p.rate → (q.retune peak).p.pendingPeak = some k ∧ (q.retune peak).x.peak = q.x.peak ∧
        (q.retune peak).p.phase = .falling ∧ (q.retune peak).p.rate = q.p.rate) ∧
      (q.p.rate ≤ k → (q.retune peak).p.pendingPeak = none ∧ (q.retune peak).x.peak = k)

/-- The rate update keeps the rate between the floor and the greatest of the rate, the ceiling and the fall target: a rise stops at
the ceiling, a fall at its target (R133). -/
def Obligations.TheRateUpdateStaysInRange : Prop :=
  ∀ q : Play, q.x.floor ≤ q.p.rate → q.x.floor ≤ q.ceiling → q.x.floor ≤ q.targetRate →
    q.x.floor ≤ q.rateUpdate.p.rate ∧ q.rateUpdate.p.rate ≤ max q.p.rate (max q.ceiling q.targetRate) ∧
    (q.p.phase = .rising → q.rateUpdate.p.rate = min q.ceiling (q.p.rate + q.x.rise)) ∧
    (q.p.phase = .falling → q.rateUpdate.p.rate = max q.targetRate (q.p.rate - q.x.fall)) ∧
    (q.p.phase ≠ .rising → q.p.phase ≠ .falling → q.rateUpdate.p.rate = q.p.rate)

/-- RETARGET, DROP-NEXT, STOP and TAPER-STOP are judged against their slot, and else do what R145 to R148 give. The REPLY of a
RETARGET that ends its transfer carries the clamped length (assumption log 14), and a TAPER-STOP with no next record leaves the
next-dropped mark as it is (assumption log 22, DEDUCED). -/
def Obligations.SlotControlsActOnTheirSlot : Prop :=
  ∀ (s : State) (t : Nat) (m : Msg), s.Settled t → s.Brings t m .dispatch →
    let u := s.met t m
    let ended (l : Nat) := be 1 1 ++ be 8 l
    (7 < byteAt m.body 0 →
      (m.kind = Kind.retarget.code → exec (.retarget t) s = .next (u.reply m stBadRange [])) ∧
      (m.kind = Kind.dropNext.code → exec (.dropNext t) s = .next (u.reply m stBadRange [])) ∧
      (m.kind = Kind.stop.code → exec (.stop t) s = .next (u.reply m stBadRange [])) ∧
      (m.kind = Kind.taperStop.code → exec (.taperStop t) s = .next (u.reply m stBadRange []))) ∧
    ∀ i : SlotNo, byteAt m.body 0 = i.val →
      let x := u.slots[i]
      (x.owner ≠ some (u.sender m) →
        (m.kind = Kind.retarget.code → exec (.retarget t) s = .next (u.reply m stNotAllowed [])) ∧
        (m.kind = Kind.dropNext.code → exec (.dropNext t) s = .next (u.reply m stNotAllowed [])) ∧
        (m.kind = Kind.stop.code → exec (.stop t) s = .next (u.reply m stNotAllowed [])) ∧
        (m.kind = Kind.taperStop.code → exec (.taperStop t) s = .next (u.reply m stNotAllowed []))) ∧
      (x.owner = some (u.sender m) →
        (m.kind = Kind.retarget.code →
          (x.runs = false → exec (.retarget t) s = .next (u.reply m stNotRunning [])) ∧
          (x.runs = true → field m.body 1 8 = 0 → exec (.retarget t) s = .next (u.reply m stBadRange [])) ∧
          ∀ c, x.runs = true → field m.body 1 8 ≠ 0 → x.cur = some c →
            let l := min (field m.body 1 8) (((u.obj? c.xfer.obj).map (·.total)).getD 0 - c.xfer.start)
            (l ≤ x.sent → exec (.retarget t) s = .next (State.finish (u,
              [.endTransfer i .retarget, .send (u.replyTo m stOk (ended l))])))) ∧
        (m.kind = Kind.dropNext.code →
          (x.next = none → exec (.dropNext t) s = .next (u.reply m stNoSuch [])) ∧
          ∀ r, x.next = some r →
            let v := u.updSlot i fun x => { x with next := none }
            exec (.dropNext t) s = .next (State.finish (v, [.releasePlay r.obj, .endWork, .send (v.replyTo m stOk [])]))) ∧
        (m.kind = Kind.stop.code →
          (x.state = .idle → exec (.stop t) s = .next (u.reply m stNotRunning [])) ∧
          (x.state ≠ .idle → exec (.stop t) s = .next (State.finish (u, [.endTransfer i .stopped, .send (u.replyTo m stOk [])])))) ∧
        (m.kind = Kind.taperStop.code →
          (x.runs = false → exec (.taperStop t) s = .next (u.reply m stNotRunning [])) ∧
          (∀ q, x.runs = true → x.play? = some q → x.next = none →
            (q.p.rate = q.x.floor → exec (.taperStop t) s = .next (State.finish (u.taperDrop i,
              [.endTransfer i .tapered, .send ((u.taperDrop i).replyTo m stOk [1])]))) ∧
            (q.p.rate ≠ q.x.floor → ∃ v, exec (.taperStop t) s = .next (v.reply m stOk [0]) ∧
              v = (u.taperDrop i).updSlot i fun x =>
                x.setPlay { q with p.taperStop := true, p.phase := .falling, p.target := .floor }))) ∧
          ∀ q r, x.runs = true → x.play? = some q → x.next = some r →
            let v := u.updSlot i fun x => { x with next := none, cur := x.cur.map fun c => { c with nextDropped := true } }
            let w := v.updSlot i fun x => x.setPlay { q with p.taperStop := true, p.phase := .falling, p.target := .floor }
            (q.p.rate = q.x.floor → exec (.taperStop t) s = .next (State.finish (v,
              [.releasePlay r.obj, .endWork, .endTransfer i .tapered, .send (v.replyTo m stOk [1])]))) ∧
            (q.p.rate ≠ q.x.floor → exec (.taperStop t) s = .next (State.finish (w,
              [.releasePlay r.obj, .endWork, .send (w.replyTo m stOk [0])]))))

/-- A RETARGET that leaves bytes to send sets the length, resets the tracker, frees the window past the new end and answers; it
moves no byte already sent (R145, R157). That the window fills before the REPLY is queued is the model's choice (assumption
log 42). -/
def Obligations.RetargetMovesTheEnd : Prop :=
  ∀ (s : State) (t : Nat) (m : Msg) (i : SlotNo) (c : Current), s.Settled t → s.Brings t m .dispatch →
    m.kind = Kind.retarget.code → byteAt m.body 0 = i.val →
    let u := s.met t m
    let l := min (field m.body 1 8) (((u.obj? c.xfer.obj).map (·.total)).getD 0 - c.xfer.start)
    u.slots[i].owner = some (u.sender m) → u.slots[i].runs = true → u.slots[i].cur = some c → field m.body 1 8 ≠ 0 →
    u.slots[i].sent < l →
      let v := u.updSlot i fun x => ({ x with cur := x.cur.map fun c => { c with xfer.length := l } } : Slot).resetTracker
      let w := v.freePositions i fun w => c.xfer.start + l ≤ w.offset
      exec (.retarget t) s = .next (State.finish (w.1, w.2 ++ [.fill i, .send (v.replyTo m stOk (be 1 0 ++ be 8 l))])) ∧
      v.slots[i].tracker = some Tracker.fresh ∧ v.slots[i].sent = u.slots[i].sent

/-- An ALL-STOP ends every transfer in slot order with STOPPED and answers with how many; a GROUP-HALT, and a HALT-CALL, end those
of their group that halt with it, and the HALT-CALL then queues its broadcast and its REPLY; a group out of range is ignored or
refused (R161, R162, R163). The end of a transfer stops its timer and frees its window; then its ENDED is queued, what remains is
kept as resume record, the next record is promoted after DONE, RETARGET and LOST and dropped after the others, and the claims of
the records that go are released (R138, R139, R140). That the next-dropped mark gives outcome 2 also after a later DROP-NEXT is the
model's choice (assumption log 43). -/
def Obligations.StopsEndTransfersInSlotOrder : Prop :=
  (∀ (s : State) (i : SlotNo) (reason : EndReason),
    (s.slots[i].state = .idle → carryOut (.endTransfer i reason) s = (s, [])) ∧
    (s.slots[i].state ≠ .idle →
      let w := carryOut (.endTransfer i reason) s
      w.1.slots[i] = { s.slots[i] with interval := none, primedAt := none, window := [] } ∧
      w.1.buf.fillWait = s.buf.fillWait.filter (fun f => !(f.slot = i && s.slots[i].window.any fun p => p.place = f.place)) ∧
      w.2 = s.slots[i].window.flatMap WinPos.release ++ [.endTail i reason])) ∧
  (∀ (s : State) (i : SlotNo) (reason : EndReason) (c : Current), s.slots[i].cur = some c →
    let x := s.slots[i]
    let w := carryOut (.endTail i reason) s
    let y := w.1.slots[i]
    let promotes := reason = .done ∨ reason = .retarget ∨ reason = .lost
    let left := if reason = .retarget then 0 else c.xfer.length - x.sent
    let outcome := if x.next = none then (if c.nextDropped then 2 else 0) else (if promotes then 1 else 2)
    (∀ a, x.ret = some a → w.1.link = (s.send (.hbx a kindEnded (s.ownerTag x) 0 0
      (be 1 i ++ be 2 c.tag ++ be 1 reason.code ++ be 8 x.sent ++ be 8 left ++ be 1 outcome))).link) ∧
    (left = 0 → y.resume = x.resume) ∧
    (left ≠ 0 → y.resume = some
      { xfer := { c.xfer with peak := (x.pacer.bind (·.pendingPeak)).getD c.xfer.peak }, sent := x.sent, made := s.now }) ∧
    (∀ r, promotes → x.next = some r →
      y.cur = some { xfer := r, tag := nextSlotTag x.tagCounter, nextDropped := false } ∧ y.next = none ∧ y.owner = x.owner ∧
      y.state = if r.group = 0 then .running else .primed) ∧
    ((¬ promotes ∨ x.next = none) → y.state = .idle ∧ y.cur = none ∧ y.next = none ∧ y.pacer = none ∧ y.tracker = none ∧
      y.window = [] ∧ y.owner = if y.resume = none then none else x.owner) ∧
    y.sendQueue = x.sendQueue ∧ (∀ j, j ≠ i → w.1.slots[j] = s.slots[j]) ∧ w.1.tables = s.tables ∧
    w.2 = releaseTasks ((if promotes then [] else x.next.toList.map (·.obj)) ++
      (if left = 0 then [c.xfer.obj] else x.resume.toList.map fun r => r.xfer.obj)) ++ [.fill i]) ∧
  ∀ (s : State) (t : Nat) (m : Msg), s.Settled t → s.Brings t m .dispatch →
    let u := s.met t m
    let g := byteAt m.body 0
    (m.kind = Kind.allStop.code →
      let is := slotNos.filter fun i => u.slots[i].state ≠ .idle
      exec (.allStop t) s = .next (State.finish (u, is.map (Task.endTransfer · .stopped) ++ [.send (u.replyTo m stOk (be 1 is.length))]))) ∧
    (m.kind = Kind.groupHalt.code → (1 ≤ g ∧ g ≤ 15 →
        exec (.groupHalt t) s = .next (State.finish (u, (u.haltSlots g).map (Task.endTransfer · .halted)))) ∧
      (g = 0 ∨ 15 < g → exec (.groupHalt t) s = .next u)) ∧
    (m.kind = Kind.haltCall.code → (1 ≤ g ∧ g ≤ 15 →
        exec (.haltCall t) s = .next (State.finish (u, (u.haltSlots g).map (Task.endTransfer · .halted) ++
          [.send (.hbx u.broadcast Kind.groupHalt.code 0 0 0 (be 1 g)), .send (u.replyTo m stOk (be 1 (u.haltSlots g).length))]))) ∧
      (g = 0 ∨ 15 < g → exec (.haltCall t) s = .next (u.reply m stBadRange [])))

/-- A GROUP-GO, and a GROUP-CALL, start every PRIMED slot of the group at once and no other slot; the GROUP-CALL then queues its
broadcast and its REPLY with how many started; a group out of range is ignored or refused (R159, R160). -/
def Obligations.GroupsStartTogether : Prop :=
  ∀ (s : State) (t : Nat) (m : Msg), s.Settled t → s.Brings t m .dispatch →
    let u := s.met t m
    let g := byteAt m.body 0
    (m.kind = Kind.groupGo.code → (1 ≤ g ∧ g ≤ 15 → exec (.groupGo t) s = .next (u.goGroup g)) ∧
      (g = 0 ∨ 15 < g → exec (.groupGo t) s = .next u)) ∧
    (m.kind = Kind.groupCall.code → (1 ≤ g ∧ g ≤ 15 → exec (.groupCall t) s = .next
        (((u.goGroup g).send (.hbx u.broadcast Kind.groupGo.code 0 0 0 (be 1 g))).reply m stOk
          (be 1 (u.slots.toList.countP (Slot.primedIn g))))) ∧
      (g = 0 ∨ 15 < g → exec (.groupCall t) s = .next (u.reply m stBadRange []))) ∧
    ∀ i : SlotNo, (u.slots[i].primedIn g = true → (u.goGroup g).slots[i].state = .running ∧
        (u.goGroup g).slots[i].tracker = some Tracker.fresh ∧ (u.goGroup g).slots[i].interval = some (u.now + 1)) ∧
      (u.slots[i].primedIn g = false → (u.goGroup g).slots[i] = u.slots[i])

/-- A VIEW-REPORT for a running slot of its sender with the current tag moves that slot's tracker, and on entering or leaving
STRAINED its pacer (R154, R156), and no other slot and no other part of the box; any other is ignored. A report in band counts up and clears out of band, and the other way round, each to at most 15; k_lock in
band bring STEADY, k_unlock out of band STRAINED (R151, R152, R153). -/
def Obligations.ReportsMoveOnlyTheirTracker : Prop :=
  (∀ (k : Tracker) (inBand : Bool) (kLock kUnlock : Nat),
    let c := k.count inBand
    (inBand = true → c.inBand = min 15 (k.inBand + 1) ∧ c.outBand = 0) ∧
    (inBand = false → c.outBand = min 15 (k.outBand + 1) ∧ c.inBand = 0) ∧
    c.state = k.state ∧
    (inBand = true → kLock ≤ c.inBand → c.judge inBand kLock kUnlock = .steady) ∧
    (inBand = true → c.inBand < kLock → c.judge inBand kLock kUnlock = k.state) ∧
    (inBand = false → kUnlock ≤ c.outBand → c.judge inBand kLock kUnlock = .strained) ∧
    (inBand = false → c.outBand < kUnlock → c.judge inBand kLock kUnlock = k.state)) ∧
  ∀ (s : State) (t : Nat) (m : Msg), s.Settled t → s.Brings t m .dispatch → m.kind = Kind.viewReport.code →
    let u := s.met t m
    (7 < byteAt m.body 0 → exec (.viewReport t) s = .next u) ∧
    ∀ i : SlotNo, byteAt m.body 0 = i.val →
      let taken := u.slots[i].owner = some (u.sender m) ∧ u.slots[i].runs = true ∧
        ∃ c, u.slots[i].cur = some c ∧ c.tag = field m.body 1 2
      (taken → exec (.viewReport t) s = .next (u.updSlot i fun x =>
        x.report (field m.body 3 8) u.loader.image.kLock u.loader.image.kUnlock)) ∧
      (¬ taken → exec (.viewReport t) s = .next u)

/-- A RUNNING slot's due interval makes the taper check and the rate update, then adds the rate to the credit and emits, or ends
a taper stop at the floor; a STALLED slot's due interval goes on when its data is ready, ends when it is lost, and else waits;
an interval not due does nothing (R132 to R136). Which segment is next, and that a lost position in it comes before one not ready,
is assumption log 24 (DEDUCED, and DESIGN CHOICE for a segment that straddles two places). -/
def Obligations.IntervalsPaceTheirSlot : Prop :=
  ∀ (s : State) (t : Nat) (i : SlotNo), s.Settled t →
    let x := s.slots[i]
    (∀ q e, x.state = .running → x.play? = some q → x.interval = some e → e ≤ t →
      let r := q.taperCheck.rateUpdate
      let v := (s.atTime t).updSlot i fun x => { x.setPlay r with interval := x.interval.map fun e => e + 1 }
      (r.p.taperStop = true → r.p.rate = r.x.floor →
        exec (.pacingInterval t i) s = .next (State.finish (v, [.endTransfer i .tapered]))) ∧
      ((r.p.taperStop = false ∨ r.p.rate ≠ r.x.floor) →
        exec (.pacingInterval t i) s = .next (State.finish
          (v.updSlot i fun x => { x with pacer := x.pacer.map fun p => { p with credit := p.credit + p.rate } }, [.emit i])))) ∧
    (∀ c e, x.state = .stalled → x.cur = some c → x.interval = some e → e ≤ t →
      let g := x.nextSegment c
      let v := (s.atTime t).updSlot i fun x => { x with interval := x.interval.map fun e => e + 1 }
      (x.segmentLost g.1 g.2 = true → exec (.stalledInterval t i) s = .next (State.finish (v, [.endTransfer i .lost]))) ∧
      (x.segmentLost g.1 g.2 = false → x.segmentReady g.1 g.2 = false → exec (.stalledInterval t i) s = .next v) ∧
      (x.segmentLost g.1 g.2 = false → x.segmentReady g.1 g.2 = true → exec (.stalledInterval t i) s = .next
        (State.finish (((s.atTime t).updSlot i fun x => { x with state := .running, stallStart := none }).pace i)))) ∧
    (∀ e, x.interval = some e → t < e → exec (.pacingInterval t i) s = .next (s.atTime t) ∧
      exec (.stalledInterval t i) s = .next (s.atTime t))

/-- A stall of 20 s ends its transfer with STALL, or ASLEEP while the box is not AWAKE; a record PRIMED for 60 s ends with
UNSTARTED; a resume record of 30 s outside DEEP goes, with its owner and claim; before their times nothing happens (R137, R140,
R158). -/
def Obligations.SlotTimersEndWhatTheyTime : Prop :=
  ∀ (s : State) (t : Nat) (i : SlotNo), s.Settled t →
    let x := s.slots[i]
    (∀ e, x.state = .stalled → x.stallStart = some e →
      (e + 20000 ≤ t → exec (.stallTimeout t i) s = .next (State.finish (s.atTime t,
        [.endTransfer i (if s.power.state = .awake then .stall else .asleep)]))) ∧
      (t < e + 20000 → exec (.stallTimeout t i) s = .next (s.atTime t))) ∧
    (∀ e, x.state = .primed → x.primedAt = some e →
      (e + 60000 ≤ t → exec (.primedTimeout t i) s = .next (State.finish (s.atTime t, [.endTransfer i .unstarted]))) ∧
      (t < e + 60000 → exec (.primedTimeout t i) s = .next (s.atTime t))) ∧
    (∀ r, x.resume = some r →
      (s.power.state ≠ .deep → r.made + 30000 ≤ t → exec (.resumeRecordExpiry t i) s = .next (State.finish
        ((s.atTime t).updSlot i fun x => { x with resume := none, owner := if x.state = .idle then none else x.owner },
         [.releasePlay r.xfer.obj, .endWork]))) ∧
      ((s.power.state = .deep ∨ t < r.made + 30000) → exec (.resumeRecordExpiry t i) s = .next (s.atTime t)))

/-! ## Stripes, the XOR Engine, the journal and the DRAM port (Chapters 5, 6 and 11) -/

/-- The open journal block closes 200 ms after its first record, and the filling stripe when its close timer expires; before
that, nothing (R98, R181). -/
def Obligations.BlockAndStripeCloseOnTime : Prop :=
  ∀ (s : State) (t : Nat), s.Settled t →
    (∀ b, s.openBlock = some b →
      (b.opened + 200 ≤ t → exec (.blockTimer t) s = .next (State.finish (s.atTime t, [.closeBlock]))) ∧
      (t < b.opened + 200 → exec (.blockTimer t) s = .next (s.atTime t))) ∧
    (s.openBlock = none → exec (.blockTimer t) s = .next (s.atTime t)) ∧
    (∀ e, s.store.closeTimer = some e →
      (e ≤ t → exec (.closeTimer t) s = .next (State.finish (s.atTime t, [.closeStripe]))) ∧
      (t < e → exec (.closeTimer t) s = .next (s.atTime t)))

/-- The idle XOR Engine takes the head of the list it did not serve last, else of the other, and issues the reads of the job's inputs
and the write of its result to the DRAM port (their sizes: assumption log 8); a busy engine takes nothing; a parity job that ends
leaves the parity image and the stripe in QUEUEING; a reconstruction job that ends leaves the XOR of its sources in
its result space, which lands in the copy read or repaired, or is queued to the member rebuilt (R99, R100, R108, R110, R112). In DEEP, where the
engines are stopped, none of them does anything (R168; assumption log 46). -/
def Obligations.TheXorEngineServesItsListsInTurn : Prop :=
  (∀ (s : State) (t : Nat), s.Settled t → s.power.state = .deep →
    exec (.xorJobTake t) s = .next (s.atTime t) ∧ exec (.parityJobEnd t) s = .next (s.atTime t) ∧
    exec (.reconstructionJobEnd t) s = .next (s.atTime t)) ∧
  ∀ (s : State) (t : Nat), s.Settled t → s.power.state ≠ .deep →
    (s.store.xorBusy.isSome = true → exec (.xorJobTake t) s = .next (s.atTime t)) ∧
    (∀ n ns, s.store.xorBusy = none → s.store.parityList = n :: ns → (s.store.reconLast = true ∨ s.store.reconList = []) →
      ∃ u, exec (.xorJobTake t) s = .next u ∧ u.store.xorBusy = some (.parity n) ∧ u.store.parityList = ns ∧
        u.store.reconList = s.store.reconList ∧ u.store.reconLast = false ∧
        ∀ r, s.stripe? n = some r → u.buf.port.waiting = s.buf.port.waiting ++
          ((r.filled.map Filled.length ++ [1048576]).filter (0 < ·)).map fun k => (.xor, k)) ∧
    (∀ j js, s.store.xorBusy = none → s.store.reconList = j :: js → (s.store.reconLast = false ∨ s.store.parityList = []) →
      ∃ u, exec (.xorJobTake t) s = .next u ∧ u.store.xorBusy = some (.recon j) ∧ u.store.reconList = js ∧
        u.store.parityList = s.store.parityList ∧ u.store.reconLast = true ∧
        ∀ job, s.job? j = some job → u.buf.port.waiting = s.buf.port.waiting ++
          ((job.sources.map (fun _ => job.length) ++ [job.length]).filter (0 < ·)).map fun k => (.xor, k)) ∧
    (∀ n r, s.store.xorBusy = some (.parity n) → s.stripe? n = some r → r.state = .filling → r.phase = .parity →
      exec (.parityJobEnd t) s = .next (State.finish
        ((({ s.atTime t with store.xorBusy := none } : State).formParity r).updStripe n fun r => { r with phase := .queueing },
         [.judgeQueueing]))) ∧
    ∀ id j p, s.store.xorBusy = some (.recon id) → s.job? id = some j → j.place = some p →
      let v := ({ s.atTime t with store.xorBusy := none } : State).formResult j p
      (∀ c, j.kind = .read c → exec (.reconstructionJobEnd t) s = .next (State.finish
        (((v.fillCopy c (v.resultBytes j)).updCopy c fun c => { c with rebuilt := true }).dropJob id,
         j.placeTasks ++ [.busyDown j.stripe, .landed c]))) ∧
      (∀ c, j.kind = .repair c → exec (.reconstructionJobEnd t) s = .next (State.finish
        ((v.fillCopy c (v.resultBytes j)).updJob id fun j => { j with stage := .verifying }, [.landed c]))) ∧
      (∀ b, j.kind = .rebuild → s.bayOf j.target = some b → exec (.reconstructionJobEnd t) s = .next (State.finish
        (v.updJob id fun j => { j with stage := .rewriting }, [.offer b .stripe (.writeSlot j.stripe (.rebuild id))])))

/-- A turn of the DRAM port ends: at most 4 KiB of the served transfer has moved, and the next requester in order with a transfer
waiting is served; in DEEP the transfer being served goes on to its end and no other is served (R90). An idle port serves a transfer
as it is issued, but in DEEP (R90). -/
def Obligations.DramTurnsGoRound : Prop :=
  (∀ (s : State) (r : Requester) (n : Nat), 0 < n → (s.issue r n).buf.port =
    { s.buf.port with
      waiting := s.buf.port.waiting ++ [(r, n)]
      turn := if s.buf.port.turn.isSome ∨ s.power.state = .deep then s.buf.port.turn
        else (requestersAfter s.buf.port.last).find? fun q => (s.buf.port.waiting ++ [(r, n)]).any fun x => x.1 = q }) ∧
  ∀ (s : State) (t : Nat), s.Settled t → ∃ u, exec (.dramTurnEnd t) s = .next u ∧
    u.buf.port.waiting = (match s.buf.port.turn with
      | none => s.buf.port.waiting
      | some r => moveTurn r s.buf.port.waiting) ∧
    u.buf.port.last = s.buf.port.turn.getD s.buf.port.last ∧
    (s.power.state = .deep → u.buf.port.turn = match s.buf.port.turn with
      | none => none
      | some r => if (s.buf.port.waiting.find? fun x => x.1 = r).any (fun x => 4096 < x.2) then some r else none) ∧
    (s.power.state ≠ .deep → u.buf.port.turn =
      (requestersAfter u.buf.port.last).find? fun r => u.buf.port.waiting.any fun x => x.1 = r) ∧
    u.buf.stagingMem = s.buf.stagingMem ∧ u.link = s.link ∧ u.store = s.store ∧ u.slots = s.slots

/-! ## The disks (Chapter 7) -/

/-- What a disk's success report for the command in flight's attempt does: the command has landed; a read's bytes, cut or filled
with zeros to its length (assumption log 35, DEDUCED), are in their pages; its giver is told; the next command may go, and a
spin-up ordered during a SPIN-DOWN begins (R102, R107, R108, R110, R112, R117, R119, R123, R182, R189). With no command in flight,
and for an attempt that has failed, a report does nothing (R120). What start-up does with a read of its load: a failed one passes
to the next member, or from replay begins the load again with no tables; an image whose check is right begins replay at its
header's start sequence; a block taken is applied and the next read; one not taken ends replay (R189, R190). The counts are then
checked, and the entries are loaded with their refcounts, those no list names freed (R37, R55, R190, R191). An image read as records,
one after another, is the model's choice (assumption log 11). -/
def Obligations.DiskCommandsEndDone : Prop :=
  (∀ (s : State) (t : Nat) (b : BayNo) (attempt : Nat) (data : List Byte), s.Settled t →
    (∀ f, s.bays[b].flight = some f → attempt ≠ f.attempt) →
    ∀ c ∈ [Instr.readSlotDone t ⟨b, attempt⟩ data, .writeSlotDone t ⟨b, attempt⟩, .writeJournalDone t ⟨b, attempt⟩,
      .readJournalDone t ⟨b, attempt⟩ data, .spinDownDone t ⟨b, attempt⟩, .labelDone t ⟨b, attempt⟩ data],
      exec c s = .next (s.atTime t)) ∧
  (∀ (s : State) (t : Nat) (b : BayNo) (f : InFlight), s.Settled t → s.bays[b].flight = some f →
    let u := (s.atTime t).updBay b fun x => { x with flight := none }
    let after := [Task.endWork, .commandEnded true, .pump b]
    let standby := u.updBay b fun x => { x with substate := x.substate.map fun _ => .standby }
    (∀ n length id data, f.cmd = .readSlot n length (.copy id) →
      exec (.readSlotDone t ⟨b, f.attempt⟩ data) s = .next
        (State.finish (u.fillCopy id (padTo length data), [.busyDown n, .landed id] ++ after))) ∧
    (∀ n length j m data job p, f.cmd = .readSlot n length (.source j m) → s.job? j = some job → job.place = some p →
      exec (.readSlotDone t ⟨b, f.attempt⟩ data) s = .next (State.finish
        ({ u with buf.placeMem := s.buf.placeMem.writeBytes (spaceBase p m) (padTo length data) },
         [.sourceEnded j m n true] ++ after))) ∧
    (∀ n m pages length, f.cmd = .writeSlot n (.writeOut m pages length) →
      exec (.writeSlotDone t ⟨b, f.attempt⟩) s = .next (State.finish (u, [.writeEnded n m true] ++ after))) ∧
    (∀ n j, f.cmd = .writeSlot n (.rewrite j) →
      exec (.writeSlotDone t ⟨b, f.attempt⟩) s = .next (State.finish (u, [.repairEnded j] ++ after))) ∧
    (∀ n j, f.cmd = .writeSlot n (.rebuild j) →
      exec (.writeSlotDone t ⟨b, f.attempt⟩) s = .next (State.finish (u, [.rebuildWritten j] ++ after))) ∧
    (∀ start length use, f.cmd = .writeJournal start length use →
      exec (.writeJournalDone t ⟨b, f.attempt⟩) s = .next (State.finish (u, [.journalEnded use true] ++ after ++ [.judgeFormation]))) ∧
    (∀ start length use data, f.cmd = .readJournal start length use →
      exec (.readJournalDone t ⟨b, f.attempt⟩ data) s = .next
        (State.finish (u, [.loadEnded use (some (padTo length data))] ++ after))) ∧
    (∀ label data, f.cmd = .labelWrite label →
      exec (.labelDone t ⟨b, f.attempt⟩ data) s = .next (State.finish (u, after ++ [.judgeFormation]))) ∧
    (f.cmd = .spinDown → exec (.spinDownDone t ⟨b, f.attempt⟩) s = .next (State.finish
        (if s.bays[b].spinAgain then standby.beginSpin b else standby, [.commandEnded true, .substateReport, .pump b])))) ∧
  (∀ (s : State) (use : LoadUse),
    (∀ m hs, s.loader.phase = .loading m hs → carryOut (.loadEnded use none) s = (s, [.loadMember (m + 1)])) ∧
    (∀ m e, s.loader.phase = .replay m e → carryOut (.loadEnded use none) s =
      ({ s with journal := { Journal.reset with storeId := s.journal.storeId } }, [.loadMember 0]))) ∧
  (∀ (s : State) (m base : Nat) (h : Header) (hs : List (Nat × Header)) (d : List Byte),
    s.loader.phase = .loading m ((base, h) :: hs) →
    let w := carryOut (.loadEnded .image (some d)) s
    (bodyCheck (d.take h.length) = h.check → w.2 = [.readBlock] ∧ w.1.loader.phase = .replay m h.start ∧
      w.1.journal.set = true ∧ w.1.journal.lastCheckpoint = h.number ∧ w.1.journal.ringStart = h.start ∧
      w.1.journal.torn = false ∧ w.1.journal.tables = Loaded.empty.replay (readRecords h.length (d.take h.length))) ∧
    (bodyCheck (d.take h.length) ≠ h.check → w.2 = [.tryImage] ∧ w.1.loader.phase = .loading m hs ∧ w.1.journal = s.journal)) ∧
  (∀ (s : State) (m e : Nat) (d : List Byte), s.loader.phase = .replay m e →
    let w := carryOut (.loadEnded .block (some d)) s
    (∀ rs, readBlock s.journal.storeId e d = .taken rs → w.2 = [.readBlock] ∧ w.1.loader.phase = .replay m (e + 1) ∧
      w.1.journal = { s.journal with tables := s.journal.tables.replay rs }) ∧
    (∀ torn, readBlock s.journal.storeId e d = .stop torn → w.2 = [.endReplay] ∧
      w.1.journal.nextSeq = e ∧ w.1.journal.written = e - 1 ∧ w.1.journal.torn = torn ∧
      w.1.journal.tables = s.journal.tables)) ∧
  ∀ s : State, let whole := s.journal.tables.objs.filter fun o => o.total ≤ o.names.length
    ((s.loader.image.indexCapacity < s.journal.tables.chunks.length ∨ s.loader.image.objectCapacity < whole.length) →
      (carryOut .endReplay s).2 = [.storeAbsent]) ∧
    (s.journal.tables.chunks.length ≤ s.loader.image.indexCapacity → whole.length ≤ s.loader.image.objectCapacity →
      (carryOut .endReplay s).2 = [.reconcileObjects] ∧ (carryOut .endReplay s).1.journal.tables.objs = whole) ∧
    (∀ o ∈ (carryOut .reconcileObjects s).1.tables.objs, ¬ (o.state = .retired ∧ o.albumCount = 0)) ∧
    ∀ e ∈ (carryOut .reconcileChunks s).1.index,
      e.refcount = (s.tables.objs.map fun o => o.names.count e.name).sum ∧ e.refcount ≠ 0 ∧
        (e.state = .stored ∨ e.state = .lost)

/-- Outside DEEP: a first failed attempt issues the command again as attempt 2 with a new 10 s, its bytes passing through the DRAM
port again (assumption log 8); a second one declares a member FAILED, or ends a probe; a timeout is an attempt that failed, and
before 10 s it does nothing; an error for an attempt that has failed already is ignored (R116, R120). In DEEP neither does anything
(R124). A member that fails is FAILED with no bay; a report for no member or for one FAILED already changes nothing; while a rebuild
runs the REBUILDING member fails with it, in one change (assumption log 40) (R92, R113). The store is WHOLE with every member OK,
BROKEN with two FAILED, else DEGRADED; BROKEN and ABSENT stay, and turning BROKEN halts the rebuild and abandons the stripes (R93).
That a bay which an ABSENT store has left ends as a probe that fails is the model's choice (assumption log 32), and so is DEGRADED
for one FAILED member beside a REBUILDING one (assumption log 21, DESIGN CHOICE); that the condition is
not judged while STARTING is deduced (assumption log 28), and that a failed member leaves the blocks not yet offered too
(assumption log 27). That a stripe in QUEUEING is judged before the rebuild conditions is the model's choice (assumption log 42). -/
def Obligations.FailedAttemptsAreMadeTwice : Prop :=
  (∀ (s : State) (t : Nat) (b : BayNo) (f : InFlight), s.Settled t → s.bays[b].flight = some f →
    let failed (c : Instr) :=
      (f.attempt = 1 → exec c s = .next
        (((s.atTime t).updBay b fun x => { x with flight := some { f with attempt := 2, issued := t } }).issue
          (diskRequester b) f.cmd.bytes)) ∧
      (f.attempt ≠ 1 → s.bays[b].state = .member → exec c s = .next (State.finish (s.atTime t, [.declareFailed b false]))) ∧
      (f.attempt ≠ 1 → s.bays[b].state ≠ .member → exec c s = .next (State.finish (s.atTime t, [.probeFailed b])))
    (s.power.state ≠ .deep → failed (.commandAttemptFailed t ⟨b, f.attempt⟩)) ∧
    (s.power.state ≠ .deep → f.issued + 10000 ≤ t → failed (.commandTimeout t b)) ∧
    (t < f.issued + 10000 → exec (.commandTimeout t b) s = .next (s.atTime t)) ∧
    (∀ a, a ≠ f.attempt → exec (.commandAttemptFailed t ⟨b, a⟩) s = .next (s.atTime t)) ∧
    (s.power.state = .deep → exec (.commandTimeout t b) s = .next (s.atTime t) ∧
      exec (.commandAttemptFailed t ⟨b, f.attempt⟩) s = .next (s.atTime t))) ∧
  (∀ (s : State) (m : Nat),
    let told (ks : List Nat) := [Task.judgeCond, .labelRound] ++ ks.map Task.memberLeft ++
      [.endWork, .judgeQueueing, .rebuildStep, .judgeRebuild, .judgeAwake]
    let gone (s : State) (k : Nat) := s.updMember k fun _ => { bay := none, cond := .failed }
    ((s.member? m = none ∨ s.condOf m = some .failed) → carryOut (.memberFailed m) s = (s, [])) ∧
    (∀ e, s.member? m = some e → e.cond ≠ .failed →
      (s.store.pointer = none ∨ s.rebuildingMember = none → carryOut (.memberFailed m) s = (gone s m, told [m])) ∧
      ∀ k, s.store.pointer ≠ none → s.rebuildingMember = some k →
        carryOut (.memberFailed m) s = (gone (gone s m) k, .haltRebuild :: told [m, k]))) ∧
  ∀ s : State,
    let failed := (s.memberIds.filter fun m => s.condOf m = some .failed).length
    ((∀ m ∈ s.memberIds, s.condOf m = some .ok) → s.tableCond = .whole) ∧
    (2 ≤ failed → s.tableCond = .broken) ∧
    (failed < 2 → (∃ m ∈ s.memberIds, s.condOf m ≠ some .ok) → s.tableCond = .degraded) ∧
    ((s.power.state = .starting ∨ s.store.cond = some .broken ∨ s.store.cond = some .absent) →
      carryOut .judgeCond s = (s, [])) ∧
    (s.power.state ≠ .starting → s.store.cond ≠ some .broken → s.store.cond ≠ some .absent →
      (carryOut .judgeCond s).1 = { s with store.cond := some s.tableCond } ∧
      (s.tableCond = .broken → (carryOut .judgeCond s).2 = [.haltRebuild, .storeBroken]))

/-- Outside DEEP: a spinning-up member that reports ready is ACTIVE; 30 s without it cut the bay's power at attempt 1 and fail it at
attempt 2; 1 s after the cut the power is on and attempt 2 begins (R122). In DEEP none of them does anything (R124). -/
def Obligations.SpinUpsAreTriedTwice : Prop :=
  (∀ (s : State) (t : Nat) (b : BayNo), s.Settled t → s.power.state = .deep →
    exec (.spinUpReady t b) s = .next (s.atTime t) ∧ exec (.spinUpTimeout t b) s = .next (s.atTime t) ∧
    exec (.powerCycleOn t b) s = .next (s.atTime t)) ∧
  ∀ (s : State) (t : Nat) (b : BayNo) (a : SpinUp), s.Settled t → s.power.state ≠ .deep → s.bays[b].spin = some a →
    (s.bays[b].offSince = none → s.bays[b].state = .member → exec (.spinUpReady t b) s = .next (State.finish
      ((s.atTime t).updBay b fun x => { x with substate := some .active, spin := none }, [.substateReport, .pump b]))) ∧
    (s.bays[b].offSince = none → a.start + 30000 ≤ t → a.attempt = 1 → exec (.spinUpTimeout t b) s = .next
      ((s.atTime t).updBay b fun x => { x with power := false, offSince := some t })) ∧
    (s.bays[b].offSince = none → a.start + 30000 ≤ t → a.attempt ≠ 1 → exec (.spinUpTimeout t b) s = .next (State.finish
      (s.atTime t, if s.bays[b].state = .member then [.declareFailed b false] else [.probeFailed b]))) ∧
    (t < a.start + 30000 → exec (.spinUpTimeout t b) s = .next (s.atTime t)) ∧
    (∀ off, s.bays[b].offSince = some off → off + 1000 ≤ t → exec (.powerCycleOn t b) s = .next
      ((s.atTime t).updBay b fun x => { x with power := true, offSince := none, spin := some { attempt := 2, start := t } })) ∧
    (∀ off, s.bays[b].offSince = some off → t < off + 1000 → exec (.powerCycleOn t b) s = .next (s.atTime t))

/-- Outside DEEP a probe reads the capacity and then the label, its data cut or filled with zeros to a block (assumption log 35,
DEDUCED), and the end of the label's read is reported; outside STARTING its disk is then classified; a disk inserted outside
STARTING and DEEP is probed; in DEEP its coming or going is latched; a MEMBER's removal declares it FAILED, and another disk's
empties its bay (R115, R116, R119, R121). Once every probe of start-up has ended: with no trusted label a store is formed, of two
fitting BLANK disks or more, at sequence 1, checkpoint 1 and generation 1, and else the store is ABSENT; an ABSENT store has no
members and no journal but its torn-tail flag, and every disk with a label read leaves its member (R187, R188, R192). That the flag
stays, and what each such bay shows, are assumption log 32 (DEDUCED, and DESIGN CHOICE under factory clear); that a power cycle goes
on through a removal is assumption log 33 (DEDUCED). -/
def Obligations.DisksAreProbedAndLatched : Prop :=
  (∀ (s : State) (t : Nat) (b : BayNo), s.Settled t →
    (∀ f capacity, s.power.state ≠ .deep → s.bays[b].flight = some f → f.cmd = .capacityRead →
      s.bays[b].probe = some .capacity →
      ∃ u, exec (.capacityReadEnd t ⟨b, f.attempt⟩ capacity) s = .next u ∧ u.bays[b].capacity = some capacity ∧
        u.bays[b].probe = some .label ∧ u.bays[b].flight = some { cmd := .labelRead, attempt := 1, issued := t }) ∧
    (∀ f data, s.bays[b].flight = some f → f.cmd = .labelRead → s.power.state ≠ .starting → s.power.state ≠ .deep →
      exec (.labelDone t ⟨b, f.attempt⟩ data) s = .next (State.finish ((s.atTime t).updBay b fun x =>
        { x with flight := none, label := some (readLabel (padTo 4096 data)) }, [.classify b, .endWork, .commandEnded true]))) ∧
    (∀ f data, s.bays[b].flight = some f → f.cmd = .labelRead → s.power.state = .starting →
      exec (.labelDone t ⟨b, f.attempt⟩ data) s = .next (State.finish ((s.atTime t).updBay b fun x =>
        { x with flight := none, label := some (readLabel (padTo 4096 data)), probe := none },
        [.judgeProbes, .endWork, .commandEnded true]))) ∧
    (∀ same, s.bays[b].present = false →
      (s.power.state = .starting → exec (.diskInserted t b same) s = .next ((s.atTime t).updBay b fun x => { x with present := true })) ∧
      (s.power.state ≠ .starting → s.power.state ≠ .deep → ∃ u, exec (.diskInserted t b same) s = .next u ∧
        u.bays[b].present = true ∧ u.bays[b].power = true ∧ u.bays[b].probe = some .spin ∧
        u.bays[b].spin = some { attempt := 1, start := t } ∧ ∀ c, c ≠ b → u.bays[c] = s.bays[c]) ∧
      (s.power.state = .deep → ∃ u l, exec (.diskInserted t b same) s = .next u ∧ u.bays[b].present = true ∧
        u.bays[b].latch = some l ∧ u.bays[b].state = s.bays[b].state ∧ u.bays[b].probe = s.bays[b].probe ∧
        u.bays[b].flight = s.bays[b].flight ∧ ∀ c, c ≠ b → u.bays[c] = s.bays[c])) ∧
    (s.bays[b].present = true →
      (s.power.state = .deep → ∃ u, exec (.diskRemoved t b) s = .next u ∧ u.bays[b].present = false ∧
        u.bays[b].latch.isSome = true ∧ u.bays[b].state = s.bays[b].state) ∧
      (s.power.state ≠ .deep → s.bays[b].state = .member → exec (.diskRemoved t b) s = .next (State.finish
        ((s.atTime t).updBay b fun x => { x with present := false }, [.declareFailed b true]))) ∧
      (s.power.state ≠ .deep → s.bays[b].state ≠ .member →
        let gone := (s.atTime t).updBay b fun x =>
          { Bay.reset false with power := x.power, offSince := x.offSince, latch := x.latch }
        exec (.diskRemoved t b) s = .next (State.finish (gone,
          if s.bays[b].state ≠ .empty then [.judgeRebuild]
          else if s.bays[b].probe ≠ none ∧ s.power.state = .starting then [.judgeProbes] else []))))) ∧
  ∀ s : State,
    (s.loader.phase = .probing → (∀ b : BayNo, s.bays[b].probe = none) → carryOut .judgeProbes s = (s, [.assignMembers])) ∧
    ((∃ b : BayNo, s.bays[b].probe ≠ none) → carryOut .judgeProbes s = (s, [])) ∧
    (s.trusted = none → carryOut .assignMembers s = (s, [.formStore])) ∧
    (s.formBays.length < 2 → carryOut .formStore s = (s, [.storeAbsent])) ∧
    (2 ≤ s.formBays.length →
      let u := (carryOut .formStore s).1
      u.store.members = s.formBays.map (fun b => { bay := some b, cond := .ok }) ∧
      u.store.stripeCount = s.newStripeCount s.formBays ∧ u.labelGen = some 1 ∧ u.loader.phase = .forming ∧
      u.journal = { Journal.reset with
        set := true, storeId := s.newStoreId, nextSeq := 1, ringStart := 1, lastCheckpoint := 1, written := 0, torn := false }) ∧
    (s.loader.phase ≠ .ended →
      let u := (carryOut .storeAbsent s).1
      u.store = { Store.reset with cond := some .absent } ∧ u.journal = { Journal.reset with torn := s.journal.torn } ∧
      u.loader.phase = .ended ∧
      ∀ b : BayNo, s.bays[b].label ≠ none → u.bays[b].member = none ∧ u.bays[b].substate = none ∧
        u.bays[b].state = if (s.ownLabel b).isSome then .foreign else if s.countsBlank b then .blank else .foreign)

/-! ## Power and buttons (Chapter 10) -/

/-- A button's new level starts its debounce anew, or stops it where it is the reading's; at 50 ms the reading follows the level;
the pairing button's press opens its window, and the power button's acts by the power state (R11, R177, R178). -/
def Obligations.ButtonsPressAfterTheirDebounce : Prop :=
  ∀ (s : State) (t : Nat) (b : Button), s.Settled t →
    let l := s.power.line b
    (∀ pressed, l.level ≠ pressed → exec (.buttonLineChange t b pressed) s = .next ((s.atTime t).setLine b
      { l with level := pressed, due := if l.reading = pressed then none else some (t + 50) })) ∧
    (∀ pressed, l.level = pressed → exec (.buttonLineChange t b pressed) s = .next (s.atTime t)) ∧
    ((l.due = none ∨ ∃ e, l.due = some e ∧ t < e) → exec (.buttonDebounceExpiry t b) s = .next (s.atTime t)) ∧
    ∀ e, l.due = some e → e ≤ t →
      let v := (s.atTime t).setLine b { l with reading := l.level, due := none }
      ((l.level = false ∨ l.reading = true) → exec (.buttonDebounceExpiry t b) s = .next v) ∧
      (l.level = true → l.reading = false →
        (b = .pairing → exec (.buttonDebounceExpiry t b) s = .next
          (if s.power.state = .starting ∨ s.power.state = .deep then v
           else { v with link.window := some (t + s.loader.image.pairingWindow * 1000) })) ∧
        (b = .power →
          (s.power.state = .starting → exec (.buttonDebounceExpiry t b) s = .next v) ∧
          (s.power.state = .awake → exec (.buttonDebounceExpiry t b) s = .next v.restartDiskIdle.restartDeepIdle) ∧
          (s.power.state = .waking → exec (.buttonDebounceExpiry t b) s = .next v.restartDeepIdle) ∧
          (s.power.state = .quiet → exec (.buttonDebounceExpiry t b) s = .next (State.finish (v.restartDeepIdle, [.momentary]))) ∧
          (s.power.state = .deep → exec (.buttonDebounceExpiry t b) s = .next (State.finish (v, [.exitDeep .press])))))

/-- In AWAKE an expired disk idle timer takes the box to QUIET and orders SPIN-DOWN of every member not in STANDBY; in QUIET an
expired qualifier window clears the count; an expired DEEP idle timer sets the DEEP-due mark and makes the DEEP check; before
their times nothing happens (R167, R171, R173, R174). Entry to DEEP queues the ANNOUNCE, stops the announce timer, closes the
pairing window, clears the DEEP-due mark and the qualifier, and gives up the parity reserve (R175); the exit makes the box QUIET
with its ANNOUNCE and both timers started, and goes on in the order of R176, the frozen resume records resuming with the time they
had left: their time of making moves on by the time in DEEP (assumption log 30, DESIGN CHOICE). That the send queues keep what they
hold at the entry (assumption log 43), that a check and a reconstruction are kept (log 46), and that a bay kept by a FAILED member is not spun down
(log 26), are the model's choices. -/
def Obligations.PowerTimersActWhenTheyExpire : Prop :=
  (∀ s : State,
    let u := (carryOut .enterDeep s).1
    (carryOut .enterDeep s).2 = [] ∧ u.power.state = .deep ∧ u.power.deepDue = false ∧ u.power.deepIdle = none ∧
    u.power.count = 0 ∧ u.power.window = none ∧ u.link.announce = none ∧ u.link.window = none ∧ u.link.asks = [] ∧
    u.link.control = ({ s with power.state := .deep } : State).announce.link.control ∧ u.buf.reserve = none ∧
    u.buf.pool = (match s.buf.reserve with
      | none => s.buf.pool
      | some set => s.buf.pool.filter fun p => !set.contains p.1) ∧
    (∀ b : BayNo, s.bays[b].state = .member → u.bays[b] = s.bays[b]) ∧
    u.slots = s.slots ∧ u.tables = s.tables ∧ u.index = s.index ∧ u.ingest = s.ingest ∧ u.store = s.store ∧ u.journal = s.journal) ∧
  (∀ (s : State) (cause : Cause), s.power.state = .deep →
    let u := (carryOut (.exitDeep cause) s).1
    u.power.state = .quiet ∧ u.link.announce = some (s.now + 30000) ∧
    u.link.control = ({ s with power.state := .quiet } : State).announce.link.control ∧
    u.power.deepIdle = (if s.loader.image.deepIdleMin = 0 then none else some (s.now + s.loader.image.deepIdleMin * 60000)) ∧
    (carryOut (.exitDeep cause) s).2 =
      [.takeReserve, .takeLatch 0, .takeLatch 1, .takeLatch 2, .takeLatch 3, .judgeRebuild, .resumeTimers] ++
        (match cause with
          | .message => []
          | .wake => [.orderSpinUp]
          | .press => [.momentary]) ∧
    u.bays = s.bays ∧ u.slots = s.slots ∧ u.tables = s.tables) ∧
  (∀ (s : State) (since : Nat) (i : SlotNo), s.power.deepSince = some since →
    let u := (carryOut .resumeTimers s).1
    u.power.deepSince = none ∧ u.slots[i].state = s.slots[i].state ∧ u.slots[i].resume =
      s.slots[i].resume.map fun r => { r with made := r.made + (s.now - since) }) ∧
  ∀ (s : State) (t : Nat), s.Settled t →
    (∀ e, s.power.diskIdle = some e → e ≤ t → s.power.state = .awake →
      let v := ({ s.atTime t with power.diskIdle := none } : State).enterPower .quiet
      v.power.state = .quiet ∧
      exec (.diskIdleTimer t) s = .next (State.finish (v,
        ((v.liveBays.filter fun b => v.bays[b].substate ≠ some .standby).map fun b => Task.offer b .power .spinDown) ++ [.deepCheck]))) ∧
    ((s.power.diskIdle = none ∨ (∃ e, s.power.diskIdle = some e ∧ t < e) ∨ s.power.state ≠ .awake) →
      exec (.diskIdleTimer t) s = .next (s.atTime t)) ∧
    (∀ e, s.power.window = some e → e ≤ t → s.power.state = .quiet →
      exec (.qualifierWindowExpiry t) s = .next { s.atTime t with power.count := 0, power.window := none }) ∧
    ((s.power.window = none ∨ (∃ e, s.power.window = some e ∧ t < e) ∨ s.power.state ≠ .quiet) →
      exec (.qualifierWindowExpiry t) s = .next (s.atTime t)) ∧
    (∀ e, s.power.deepIdle = some e → e ≤ t → exec (.deepIdleTimer t) s = .next (State.finish
      ({ s.atTime t with power.deepIdle := none, power.deepDue := true }, [.deepCheck]))) ∧
    ((s.power.deepIdle = none ∨ ∃ e, s.power.deepIdle = some e ∧ t < e) → exec (.deepIdleTimer t) s = .next (s.atTime t))
end

