-- ==== Sys2Proof/Laws/Memory.lean ====
section
/-! SUPPORT. Laws/Memory.lean: reads after writes, and that every memory operation keeps the canonical form. -/

namespace Sys2Proof.Machine

/-- Every address in a memory is above a bound. -/
def Memory.above (m : Memory) (k : Nat) : Prop := ∀ c ∈ m, k < c.1

theorem Memory.wf_nil : Memory.wf [] := ⟨List.Pairwise.nil, by simp⟩

theorem Memory.wf_cons (k : Nat) (v : Byte) (m : Memory) :
    Memory.wf ((k, v) :: m) ↔ Memory.above m k ∧ v ≠ Memory.unlisted ∧ Memory.wf m := by
  unfold Memory.wf Memory.above
  rw [List.pairwise_cons, List.forall_mem_cons]
  constructor
  · rintro ⟨⟨h1, h2⟩, h3, h4⟩
    exact ⟨h1, h3, h2, h4⟩
  · rintro ⟨h1, h3, h2, h4⟩
    exact ⟨⟨h1, h2⟩, h3, h4⟩

theorem Memory.above_write {m : Memory} {k a : Nat} (b : Byte) (h : Memory.above m k) (ha : k < a) :
    Memory.above (m.write a b) k := by
  induction m with
  | nil =>
    unfold Memory.write Memory.above
    split <;> simp [ha]
  | cons c m ih =>
    obtain ⟨j, v⟩ := c
    have hj : k < j := h (j, v) (by simp)
    have hm : Memory.above m k := fun c hc => h c (by simp [hc])
    unfold Memory.write
    split
    · split
      · exact h
      · intro c hc
        rcases List.mem_cons.mp hc with rfl | hc
        · exact ha
        · exact h c hc
    · split
      · split
        · exact hm
        · intro c hc
          rcases List.mem_cons.mp hc with rfl | hc
          · exact ha
          · exact hm c hc
      · intro c hc
        rcases List.mem_cons.mp hc with rfl | hc
        · exact hj
        · exact ih hm c hc

theorem Memory.above_mono {m : Memory} {j k : Nat} (h : Memory.above m k) (hj : j ≤ k) : Memory.above m j :=
  fun c hc => Nat.lt_of_le_of_lt hj (h c hc)

/-- Writing a byte keeps the canonical form. -/
theorem Memory.wf_write {m : Memory} (a : Nat) (b : Byte) (h : m.wf) : (m.write a b).wf := by
  induction m with
  | nil =>
    unfold Memory.write
    split
    · exact Memory.wf_nil
    · rename_i hb
      exact (Memory.wf_cons _ _ _).mpr ⟨by simp [Memory.above], hb, Memory.wf_nil⟩
  | cons c m ih =>
    obtain ⟨j, v⟩ := c
    obtain ⟨hj, hv, hm⟩ := (Memory.wf_cons _ _ _).mp h
    unfold Memory.write
    split
    · rename_i haj
      split
      · exact h
      · rename_i hb
        refine (Memory.wf_cons _ _ _).mpr ⟨?_, hb, h⟩
        intro c hc
        rcases List.mem_cons.mp hc with rfl | hc
        · exact haj
        · exact Nat.lt_trans haj (hj c hc)
    · split
      · rename_i hn haj
        subst haj
        split
        · exact hm
        · rename_i hb
          exact (Memory.wf_cons _ _ _).mpr ⟨hj, hb, hm⟩
      · rename_i hn hne
        exact (Memory.wf_cons _ _ _).mpr ⟨Memory.above_write b hj (by omega), hv, ih hm⟩

theorem Memory.read_above {m : Memory} {k a : Nat} (h : Memory.above m k) (ha : a ≤ k) : m.read a = Memory.unlisted := by
  induction m with
  | nil => rfl
  | cons c m ih =>
    obtain ⟨j, v⟩ := c
    have hj : k < j := h (j, v) (by simp)
    unfold Memory.read
    rw [if_neg (by omega)]
    exact ih fun c hc => h c (by simp [hc])

/-- A byte written reads back. -/
theorem Memory.read_write_same {m : Memory} (a : Nat) (b : Byte) (h : m.wf) : (m.write a b).read a = b := by
  induction m with
  | nil =>
    unfold Memory.write
    split
    · rename_i hb; rw [hb]; rfl
    · simp [Memory.read]
  | cons c m ih =>
    obtain ⟨j, v⟩ := c
    obtain ⟨hj, hv, hm⟩ := (Memory.wf_cons _ _ _).mp h
    unfold Memory.write
    split
    · rename_i haj
      split
      · rename_i hb
        rw [hb]
        unfold Memory.read
        rw [if_neg (by omega)]
        exact Memory.read_above hj (by omega)
      · simp [Memory.read]
    · split
      · rename_i hn haj
        subst haj
        split
        · rename_i hb
          rw [hb]
          exact Memory.read_above hj (Nat.le_refl _)
        · simp [Memory.read]
      · rename_i hn hne
        unfold Memory.read
        rw [if_neg (by omega)]
        exact ih hm

/-- Every other byte reads as before a write. -/
theorem Memory.read_write_other {m : Memory} {a c : Nat} (b : Byte) (h : m.wf) (hc : c ≠ a) :
    (m.write a b).read c = m.read c := by
  induction m with
  | nil =>
    unfold Memory.write
    split
    · rfl
    · simp [Memory.read, Ne.symm hc]
  | cons e m ih =>
    obtain ⟨j, v⟩ := e
    obtain ⟨hj, hv, hm⟩ := (Memory.wf_cons _ _ _).mp h
    unfold Memory.write
    split
    · split
      · rfl
      · conv_lhs => unfold Memory.read
        rw [if_neg (Ne.symm hc)]
    · split
      · rename_i hn haj
        subst haj
        have : Memory.read ((a, v) :: m) c = Memory.read m c := by
          conv_lhs => unfold Memory.read
          rw [if_neg (Ne.symm hc)]
        rw [this]
        split
        · rfl
        · conv_lhs => unfold Memory.read
          rw [if_neg (Ne.symm hc)]
      · conv_lhs => unfold Memory.read
        conv_rhs => unfold Memory.read
        split
        · rfl
        · exact ih hm

theorem Memory.wf_writeBytes (bs : List Byte) : ∀ {m : Memory} (a : Nat), m.wf → (m.writeBytes a bs).wf := by
  induction bs with
  | nil => exact fun _ h => h
  | cons b bs ih => exact fun a h => ih (a + 1) (Memory.wf_write a b h)

/-- Bytes outside a written range read as before. -/
theorem Memory.read_writeBytes_other (bs : List Byte) :
    ∀ {m : Memory} {a c : Nat}, m.wf → (c < a ∨ a + bs.length ≤ c) → (m.writeBytes a bs).read c = m.read c := by
  induction bs with
  | nil => exact fun _ _ => rfl
  | cons b bs ih =>
    intro m a c h hc
    simp only [List.length_cons] at hc
    have h1 : ((m.write a b).writeBytes (a + 1) bs).read c = (m.write a b).read c :=
      ih (Memory.wf_write a b h) (by omega)
    rw [Memory.writeBytes, h1]
    exact Memory.read_write_other b h (by omega)

theorem Memory.wf_filter {m : Memory} (p : Host.Cell → Bool) (h : m.wf) : Memory.wf (m.filter p) :=
  ⟨h.1.filter p, fun c hc => h.2 c (List.mem_filter.mp hc).1⟩

theorem Memory.wf_clear {m : Memory} (a n : Nat) (h : m.wf) : (m.clear a n).wf := Memory.wf_filter _ h

theorem Memory.wf_xorInto (cells : List Host.Cell) : ∀ {m : Memory} (a : Nat), m.wf → (m.xorInto a cells).wf := by
  unfold Memory.xorInto
  induction cells with
  | nil => exact fun _ h => h
  | cons c cells ih => exact fun a h => ih a (Memory.wf_write _ _ h)

theorem Memory.wf_putChunk (pages : List Nat) (bs : List Byte) :
    ∀ {m : Memory} (off : Nat), m.wf → (m.putChunk pages off bs).wf := by
  induction bs with
  | nil => exact fun _ h => h
  | cons b bs ih => exact fun off h => ih (off + 1) (Memory.wf_write _ _ h)

theorem Memory.wf_clearPages (pages : List Nat) : ∀ {m : Memory}, m.wf → (m.clearPages pages).wf := by
  unfold Memory.clearPages
  induction pages with
  | nil => exact fun h => h
  | cons p pages ih => exact fun h => ih (Memory.wf_clear _ _ h)

theorem Memory.wf_xorPages (pages : List Nat) (cells : List Host.Cell) :
    ∀ {m : Memory}, m.wf → (m.xorPages pages cells).wf := by
  unfold Memory.xorPages
  induction cells with
  | nil => exact fun h => h
  | cons c cells ih => exact fun h => ih (Memory.wf_write _ _ h)

theorem Memory.wf_foldl {α : Type} {f : Memory → α → Memory} (hf : ∀ m x, m.wf → (f m x).wf) :
    ∀ (l : List α) {m : Memory}, m.wf → Memory.wf (l.foldl f m)
  | [], _, h => h
  | x :: l, _, h => Memory.wf_foldl hf l (hf _ x h)

/-- A byte outside the addresses a chunk's bytes go to reads as before. -/
theorem Memory.read_putChunk_other (pages : List Nat) (bs : List Byte) :
    ∀ {m : Memory} {off c : Nat}, m.wf → (∀ i < bs.length, c ≠ pageAddr pages (off + i)) →
      (m.putChunk pages off bs).read c = m.read c := by
  induction bs with
  | nil => exact fun _ _ => rfl
  | cons b bs ih =>
    intro m off c h hc
    have h1 : ((m.write (pageAddr pages off) b).putChunk pages (off + 1) bs).read c = (m.write (pageAddr pages off) b).read c := by
      refine ih (Memory.wf_write _ _ h) fun i hi => ?_
      have := hc (i + 1) (by simpa using hi)
      rwa [show off + (i + 1) = off + 1 + i by omega] at this
    rw [Memory.putChunk, h1]
    exact Memory.read_write_other b h (by simpa using hc 0 (by simp))

end Sys2Proof.Machine
end

