-- ==== Sys2Proof/Laws/Keeps.lean ====
section
/-! SUPPORT. Laws/Keeps.lean: what no shared operation and no task ever breaks: it keeps the invariant, the command queue, the
clock, the straps and the configuration image. -/

namespace Sys2Proof.Machine

/-- What every piece of work keeps. -/
structure Keeps (s t : State) : Prop where
  pending : t.pending = s.pending
  now : t.now = s.now
  image : t.loader.image = s.loader.image
  straps : t.loader.straps = s.loader.straps
  inv : s.Inv → t.Inv

theorem Keeps.refl (s : State) : Keeps s s := ⟨rfl, rfl, rfl, rfl, id⟩

theorem Keeps.trans {s t u : State} (h : Keeps s t) (k : Keeps t u) : Keeps s u :=
  ⟨k.pending.trans h.pending, k.now.trans h.now, k.image.trans h.image, k.straps.trans h.straps, fun i => k.inv (h.inv i)⟩

/-- A record update keeps what `Keeps` names when it lengthens no list and leaves memories canonical. -/
theorem mk_after {s u : State} (h : Keeps s u) {uf ch link ix tb ing buf st bays lg sl pw jr ld}
    (image : ld.image = u.loader.image) (straps : ld.straps = u.loader.straps)
    (staging : u.buf.stagingMem.wf → buf.stagingMem.wf) (cache : u.buf.cacheMem.wf → buf.cacheMem.wf)
    (places : u.buf.placeMem.wf → buf.placeMem.wf)
    (fifo : link.fifo.length ≤ u.link.fifo.length) (control : link.control.length ≤ u.link.control.length)
    (asks : link.asks.length ≤ u.link.asks.length) (runs : ing.runs.length ≤ u.ingest.runs.length)
    (checks : ing.queue.length ≤ u.ingest.queue.length) (blocks : buf.blocks.length ≤ u.buf.blocks.length) :
    Keeps s ⟨u.pending, u.now, uf, ch, link, ix, tb, ing, buf, st, bays, lg, sl, pw, jr, ld⟩ where
  pending := h.pending
  now := h.now
  image := image.trans h.image
  straps := straps.trans h.straps
  inv i := by
    have j := h.inv i
    exact ⟨staging j.staging, cache j.cache, places j.places, fifo.trans j.fifo, control.trans j.control, asks.trans j.asks,
      runs.trans j.runs, checks.trans j.checks, blocks.trans j.blocks⟩

theorem foldl_after {α : Type} {s : State} {f : State → α → State} (hf : ∀ v x, Keeps s v → Keeps s (f v x)) :
    ∀ (l : List α) {u : State}, Keeps s u → Keeps s (l.foldl f u)
  | [], _, h => h
  | x :: l, _, h => foldl_after hf l (hf _ x h)

end Sys2Proof.Machine
end

