-- ==== Sys2Proof/Laws/KeepsOps.lean ====
section
/-! SUPPORT. Laws/KeepsOps.lean: the operations of Machine/Ops.lean keep what `Keeps` names. -/

namespace Sys2Proof.Machine

theorem State_idle_after {s u : State} (h : Keeps s u) : Keeps s (State.idle u).1 := by
  unfold State.idle
  (try dsimp only)
  (repeat' split) <;> (try dsimp only) <;> (repeat' (first | with_reducible assumption))

theorem State_setPeer_after {s u : State} (n : Nat) (p : Option Peer) (h : Keeps s u) : Keeps s (State.setPeer u n p) := by
  unfold State.setPeer
  (try dsimp only)
  (repeat' split) <;> (try dsimp only) <;> (repeat' (first | with_reducible assumption | with_reducible exact Nat.le_refl _ | with_reducible exact fun w => w | with_reducible rfl | with_reducible apply mk_after))

theorem State_updPeer_after {s u : State} (n : Nat) (f : Peer → Peer) (h : Keeps s u) : Keeps s (State.updPeer u n f) := by
  unfold State.updPeer
  (repeat' split) <;> (try dsimp only) <;> (repeat' (first | with_reducible assumption | with_reducible apply State_setPeer_after))

theorem State_updEntry_after {s u : State} (n : Name) (f : Entry → Entry) (h : Keeps s u) : Keeps s (State.updEntry u n f) := by
  unfold State.updEntry
  (repeat' split) <;> (try dsimp only) <;> (repeat' (first | with_reducible assumption | with_reducible exact Nat.le_refl _ | with_reducible exact fun w => w | with_reducible rfl | with_reducible apply mk_after))

theorem State_dropEntry_after {s u : State} (n : Name) (h : Keeps s u) : Keeps s (State.dropEntry u n) := by
  unfold State.dropEntry
  (repeat' split) <;> (try dsimp only) <;> (repeat' (first | with_reducible assumption | with_reducible exact Nat.le_refl _ | with_reducible exact fun w => w | with_reducible rfl | with_reducible apply mk_after))

theorem State_updObj_after {s u : State} (id : Nat) (f : Obj → Obj) (h : Keeps s u) : Keeps s (State.updObj u id f) := by
  unfold State.updObj
  (try dsimp only)
  (repeat' split) <;> (try dsimp only) <;> (repeat' (first | with_reducible assumption | with_reducible exact Nat.le_refl _ | with_reducible exact fun w => w | with_reducible rfl | with_reducible apply mk_after))

theorem State_setAlbum_after {s u : State} (a : Nat) (v : Option Album) (h : Keeps s u) : Keeps s (State.setAlbum u a v) := by
  unfold State.setAlbum
  (try dsimp only)
  (repeat' split) <;> (try dsimp only) <;> (repeat' (first | with_reducible assumption | with_reducible exact Nat.le_refl _ | with_reducible exact fun w => w | with_reducible rfl | with_reducible apply mk_after))

theorem State_updRun_after {s u : State} (id : Nat) (f : Run → Run) (h : Keeps s u) : Keeps s (State.updRun u id f) := by
  unfold State.updRun
  (try dsimp only)
  (repeat' split) <;> (try dsimp only) <;> (repeat' (first | with_reducible assumption | with_reducible exact Nat.le_refl _ | with_reducible exact fun w => w | with_reducible rfl | with_reducible apply mk_after | with_reducible exact Nat.le_of_eq (List.length_map ..)))

theorem State_setArrival_after {s u : State} (i : Fin 32) (r : ArrivalRec) (h : Keeps s u) : Keeps s (State.setArrival u i r) := by
  unfold State.setArrival
  (try dsimp only)
  (repeat' split) <;> (try dsimp only) <;> (repeat' (first | with_reducible assumption | with_reducible exact Nat.le_refl _ | with_reducible exact fun w => w | with_reducible rfl | with_reducible apply mk_after))

theorem State_updCopy_after {s u : State} (id : Nat) (f : Copy → Copy) (h : Keeps s u) : Keeps s (State.updCopy u id f) := by
  unfold State.updCopy
  (try dsimp only)
  (repeat' split) <;> (try dsimp only) <;> (repeat' (first | with_reducible assumption | with_reducible exact Nat.le_refl _ | with_reducible exact fun w => w | with_reducible rfl | with_reducible apply mk_after))

theorem State_touchCopy_after {s u : State} (id : Nat) (h : Keeps s u) : Keeps s (State.touchCopy u id) := by
  unfold State.touchCopy
  (try dsimp only)
  (repeat' split) <;> (try dsimp only) <;> (repeat' (first | with_reducible assumption | with_reducible exact Nat.le_refl _ | with_reducible exact fun w => w | with_reducible rfl | with_reducible apply mk_after))

theorem State_updStripe_after {s u : State} (n : Nat) (f : Stripe → Stripe) (h : Keeps s u) : Keeps s (State.updStripe u n f) := by
  unfold State.updStripe
  (try dsimp only)
  (repeat' split) <;> (try dsimp only) <;> (repeat' (first | with_reducible assumption | with_reducible exact Nat.le_refl _ | with_reducible exact fun w => w | with_reducible rfl | with_reducible apply mk_after))

theorem State_dropStripe_after {s u : State} (n : Nat) (h : Keeps s u) : Keeps s (State.dropStripe u n) := by
  unfold State.dropStripe
  (try dsimp only)
  (repeat' split) <;> (try dsimp only) <;> (repeat' (first | with_reducible assumption | with_reducible exact Nat.le_refl _ | with_reducible exact fun w => w | with_reducible rfl | with_reducible apply mk_after))

theorem State_updJob_after {s u : State} (id : Nat) (f : Job → Job) (h : Keeps s u) : Keeps s (State.updJob u id f) := by
  unfold State.updJob
  (try dsimp only)
  (repeat' split) <;> (try dsimp only) <;> (repeat' (first | with_reducible assumption | with_reducible exact Nat.le_refl _ | with_reducible exact fun w => w | with_reducible rfl | with_reducible apply mk_after))

theorem State_updMember_after {s u : State} (m : Nat) (f : Member → Member) (h : Keeps s u) : Keeps s (State.updMember u m f) := by
  unfold State.updMember
  (try dsimp only)
  (repeat' split) <;> (try dsimp only) <;> (repeat' (first | with_reducible assumption | with_reducible exact Nat.le_refl _ | with_reducible exact fun w => w | with_reducible rfl | with_reducible apply mk_after))

theorem State_updBay_after {s u : State} (b : BayNo) (f : Bay → Bay) (h : Keeps s u) : Keeps s (State.updBay u b f) := by
  unfold State.updBay
  (repeat' split) <;> (try dsimp only) <;> (repeat' (first | with_reducible assumption | with_reducible exact Nat.le_refl _ | with_reducible exact fun w => w | with_reducible rfl | with_reducible apply mk_after))

theorem State_updSlot_after {s u : State} (i : SlotNo) (f : Slot → Slot) (h : Keeps s u) : Keeps s (State.updSlot u i f) := by
  unfold State.updSlot
  (repeat' split) <;> (try dsimp only) <;> (repeat' (first | with_reducible assumption | with_reducible exact Nat.le_refl _ | with_reducible exact fun w => w | with_reducible rfl | with_reducible apply mk_after))

theorem State_send_after {s u : State} (m : OutMsg) (h : Keeps s u) : Keeps s (u.send m) := by
  unfold State.send
  split
  · rename_i hlt
    refine ⟨h.pending, h.now, h.image, h.straps, fun i => ?_⟩
    have j := h.inv i
    exact ⟨j.staging, j.cache, j.places, j.fifo, by simpa using hlt, j.asks, j.runs, j.checks, j.blocks⟩
  · exact h

theorem State_sends_after {s : State} (ms : List OutMsg) : ∀ {u : State}, Keeps s u → Keeps s (ms.foldl State.send u) := by
  induction ms with
  | nil => exact fun h => h
  | cons m ms ih => exact fun h => ih (State_send_after m h)

theorem State_reply_after {s u : State} (m : Msg) (status : Nat) (data : List Byte) (h : Keeps s u) : Keeps s (State.reply u m status data) := by
  unfold State.reply
  (repeat' split) <;> (try dsimp only) <;> (repeat' (first | with_reducible assumption | with_reducible apply State_send_after))

theorem State_refuse_after {s u : State} (m : Msg) (status : Nat) (h : Keeps s u) : Keeps s (State.refuse u m status).1 := by
  unfold State.refuse
  (try dsimp only)
  (repeat' split) <;> (try dsimp only) <;> (repeat' (first | with_reducible assumption | with_reducible apply State_reply_after))

theorem State_announce_after {s u : State} (h : Keeps s u) : Keeps s (State.announce u) := by
  unfold State.announce
  (repeat' split) <;> (try dsimp only) <;> (repeat' (first | with_reducible assumption | with_reducible apply State_send_after))

theorem State_restartDeepIdle_after {s u : State} (h : Keeps s u) : Keeps s (State.restartDeepIdle u) := by
  unfold State.restartDeepIdle
  (try dsimp only)
  (repeat' split) <;> (try dsimp only) <;> (repeat' (first | with_reducible assumption | with_reducible exact Nat.le_refl _ | with_reducible exact fun w => w | with_reducible rfl | with_reducible apply mk_after))

theorem State_enterPower_after {s u : State} (p : PowerState) (h : Keeps s u) : Keeps s (State.enterPower u p) := by
  unfold State.enterPower
  (try dsimp only)
  (repeat' split) <;> (try dsimp only) <;> (repeat' (first | with_reducible assumption | with_reducible apply State_announce_after | with_reducible exact Nat.le_refl _ | with_reducible exact fun w => w | with_reducible rfl | with_reducible apply mk_after))

theorem State_setPages_after {s u : State} (pages : List Nat) (c : PageCond) (h : Keeps s u) : Keeps s (State.setPages u pages c) := by
  unfold State.setPages
  (try dsimp only)
  (repeat' split) <;> (try dsimp only) <;> (repeat' (first | with_reducible assumption | with_reducible exact Nat.le_refl _ | with_reducible exact fun w => w | with_reducible rfl | with_reducible apply mk_after))

theorem State_freeUp_after {s u : State} (pages : List Nat) (h : Keeps s u) : Keeps s (State.freeUp u pages) := by
  unfold State.freeUp
  (try dsimp only)
  (repeat' split) <;> (try dsimp only) <;> (repeat' (first | with_reducible assumption | with_reducible exact Nat.le_refl _ | with_reducible exact fun w => w | with_reducible rfl | with_reducible apply mk_after))

theorem State_grantTurn_after {s u : State} (h : Keeps s u) : Keeps s (State.grantTurn u) := by
  unfold State.grantTurn
  (try dsimp only)
  (repeat' split) <;> (try dsimp only) <;> (repeat' (first | with_reducible assumption | with_reducible exact Nat.le_refl _ | with_reducible exact fun w => w | with_reducible rfl | with_reducible apply mk_after))

theorem State_issue_after {s u : State} (r : Requester) (bytes : Nat) (h : Keeps s u) : Keeps s (State.issue u r bytes) := by
  unfold State.issue
  (try dsimp only)
  (repeat' split) <;> (try dsimp only) <;> (repeat' (first | with_reducible assumption | with_reducible apply State_grantTurn_after | with_reducible exact Nat.le_refl _ | with_reducible exact fun w => w | with_reducible rfl | with_reducible apply mk_after))

theorem State_issueAll_after {s u : State} (r : Requester) (bytes : List Nat) (h : Keeps s u) : Keeps s (State.issueAll u r bytes) :=
  foldl_after (fun _ n k => State_issue_after r n k) bytes h

theorem State_queueIngestCheck_after {s u : State} (i : CheckItem) (h : Keeps s u) : Keeps s (u.queueIngestCheck i) := by
  unfold State.queueIngestCheck
  split
  · rename_i hlt
    refine ⟨h.pending, h.now, h.image, h.straps, fun i => ?_⟩
    have j := h.inv i
    exact ⟨j.staging, j.cache, j.places, j.fifo, j.control, j.asks, j.runs, by simpa using hlt, j.blocks⟩
  · apply mk_after h <;> first | exact Nat.le_refl _ | exact fun w => w | rfl

theorem State_queueVerifyCheck_after {s u : State} (i : CheckItem) (h : Keeps s u) : Keeps s (u.queueVerifyCheck i) := by
  unfold State.queueVerifyCheck
  split
  · rename_i hlt
    refine ⟨h.pending, h.now, h.image, h.straps, fun i => ?_⟩
    have j := h.inv i
    exact ⟨j.staging, j.cache, j.places, j.fifo, j.control, j.asks, j.runs, by simpa using hlt, j.blocks⟩
  · apply mk_after h <;> first | exact Nat.le_refl _ | exact fun w => w | rfl

end Sys2Proof.Machine
end

