-- ==== Sys2Proof/Laws/KeepsLink.lean ====
section
/-! SUPPORT. Laws/KeepsLink.lean: the operations of Machine/Link.lean keep what `Keeps` names. -/

namespace Sys2Proof.Machine

theorem State_popFrame_after {s u : State} (h : Keeps s u) : Keeps s (State.popFrame u) := by
  unfold State.popFrame
  (try dsimp only)
  (repeat' split) <;> (try dsimp only) <;> (repeat' (first | with_reducible assumption | with_reducible exact Nat.le_refl _ | with_reducible exact fun w => w | with_reducible rfl | with_reducible apply mk_after | with_reducible exact Nat.le_of_eq (List.length_map ..) | with_reducible exact List.length_filter_le .. | with_reducible exact Nat.zero_le _ | split | simp [*]))

theorem State_dropFrame_after {s u : State} (h : Keeps s u) : Keeps s (State.dropFrame u) := by
  unfold State.dropFrame
  (repeat' split) <;> (try dsimp only) <;> (repeat' (first | with_reducible assumption | with_reducible apply State_popFrame_after))

theorem State_answerArp_after {s u : State} (h : Keeps s u) : Keeps s (State.answerArp u) := by
  unfold State.answerArp
  (repeat' split) <;> (try dsimp only) <;> (repeat' (first | with_reducible assumption | with_reducible apply State_send_after | with_reducible apply State_popFrame_after))

theorem State_hearRuns_after {s u : State} (n : Nat) (h : Keeps s u) : Keeps s (State.hearRuns u n) := by
  unfold State.hearRuns
  (try dsimp only)
  (repeat' split) <;> (try dsimp only) <;> (repeat' (first | with_reducible assumption | with_reducible exact Nat.le_refl _ | with_reducible exact fun w => w | with_reducible rfl | with_reducible apply mk_after | with_reducible exact Nat.le_of_eq (List.length_map ..)))

theorem State_heard_after {s u : State} (m : Msg) (h : Keeps s u) : Keeps s (State.heard u m) := by
  unfold State.heard
  (try dsimp only)
  (repeat' split) <;> (try dsimp only) <;> (repeat' (first | with_reducible assumption | with_reducible apply State_updPeer_after | with_reducible apply State_restartDeepIdle_after | with_reducible apply State_hearRuns_after))

theorem State_discardAsk_after {s u : State} (m : Msg) (h : Keeps s u) : Keeps s (State.discardAsk u m) := by
  unfold State.discardAsk
  (try dsimp only)
  (repeat' split) <;> (try dsimp only) <;> (repeat' (first | with_reducible assumption | with_reducible exact Nat.le_refl _ | with_reducible exact fun w => w | with_reducible rfl | with_reducible apply mk_after | with_reducible exact Nat.le_of_eq (List.length_map ..) | with_reducible exact List.length_filter_le ..))

theorem State_takeMessage_after {s u : State} {mine : Msg → Bool} {act : Msg → State → Work}
    (ha : ∀ m v, Keeps s v → Keeps s (act m v).1) (h : Keeps s u) : Keeps s (State.takeMessage u mine act).1 := by
  have hm : ∀ m, Keeps s (if u.counts m then (u.popFrame.discardAsk m).heard m else u.popFrame.discardAsk m) := by
    intro m
    split
    · exact State_heard_after _ (State_discardAsk_after _ (State_popFrame_after h))
    · exact State_discardAsk_after _ (State_popFrame_after h)
  unfold State.takeMessage
  split
  · rename_i m _
    split
    · cases u.gate m with
      | drop => exact hm m
      | leaveDeep => exact hm m
      | refuse st => exact State_refuse_after _ _ (hm m)
      | dispatch => exact ha _ _ (hm m)
    · exact h
  · exact h

theorem hello_after {s u : State} (m : Msg) (h : Keeps s u) : Keeps s (hello m u).1 := by
  unfold hello
  (try dsimp only)
  (repeat' split) <;> (try dsimp only) <;> (repeat' (first | with_reducible assumption | with_reducible apply State_send_after))

theorem State_unpay_after {s u : State} (n : Nat) (h : Keeps s u) : Keeps s (State.unpay u n) := by
  unfold State.unpay
  (repeat' split) <;> (try dsimp only) <;> (repeat' (first | with_reducible assumption | with_reducible exact Nat.le_refl _ | with_reducible exact fun w => w | with_reducible rfl | with_reducible apply mk_after))

theorem unpair_after {s u : State} (m : Msg) (h : Keeps s u) : Keeps s (unpair m u).1 := by
  unfold unpair
  (try dsimp only)
  (repeat' split) <;> (try dsimp only) <;> (repeat' (first | with_reducible assumption | with_reducible apply State_setPeer_after | with_reducible apply State_send_after | with_reducible apply State_refuse_after | with_reducible apply State_unpay_after))

theorem State_pressPairing_after {s u : State} (h : Keeps s u) : Keeps s (State.pressPairing u) := by
  unfold State.pressPairing
  (try dsimp only)
  (repeat' split) <;> (try dsimp only) <;> (repeat' (first | with_reducible assumption | with_reducible exact Nat.le_refl _ | with_reducible exact fun w => w | with_reducible rfl | with_reducible apply mk_after))

theorem State_closeWindow_after {s u : State} (h : Keeps s u) : Keeps s (State.closeWindow u) := by
  unfold State.closeWindow
  (try dsimp only)
  (repeat' split) <;> (try dsimp only) <;> (repeat' (first | with_reducible assumption | with_reducible exact Nat.le_refl _ | with_reducible exact fun w => w | with_reducible rfl | with_reducible apply mk_after | with_reducible exact Nat.le_of_eq (List.length_map ..) | with_reducible exact List.length_filter_le .. | with_reducible exact Nat.zero_le _ | split | simp [*]))

theorem State_windowExpiry_after {s u : State} (h : Keeps s u) : Keeps s (State.windowExpiry u) := by
  unfold State.windowExpiry
  (repeat' split) <;> (try dsimp only) <;> (repeat' (first | with_reducible assumption | with_reducible apply State_closeWindow_after))

theorem State_askExpiry_after {s u : State} (mac : Mac) (h : Keeps s u) : Keeps s (State.askExpiry u mac) := by
  unfold State.askExpiry
  (try dsimp only)
  (repeat' split) <;> (try dsimp only) <;> (repeat' (first | with_reducible assumption | with_reducible exact Nat.le_refl _ | with_reducible exact fun w => w | with_reducible rfl | with_reducible apply mk_after | with_reducible exact Nat.le_of_eq (List.length_map ..) | with_reducible exact List.length_filter_le ..))

theorem query_after {s u : State} (m : Msg) (h : Keeps s u) : Keeps s (query m u).1 := by
  unfold query
  (try dsimp only)
  (repeat' split) <;> (try dsimp only) <;> (repeat' (first | with_reducible assumption | with_reducible apply State_reply_after))

theorem State_transmit_after {s u : State} (m : OutMsg) (h : Keeps s u) : Keeps s (State.transmit u m) := by
  unfold State.transmit
  (try dsimp only)
  (repeat' split) <;> (try dsimp only) <;> (repeat' (first | with_reducible assumption | with_reducible exact Nat.le_refl _ | with_reducible exact fun w => w | with_reducible rfl | with_reducible apply mk_after))

theorem State_arbitrate_after {s u : State} (h : Keeps s u) : Keeps s (State.arbitrate u) := by
  unfold State.arbitrate
  (try dsimp only)
  (repeat' split) <;> (try dsimp only) <;> (repeat' (first | with_reducible assumption | with_reducible apply State_updSlot_after | with_reducible apply State_transmit_after | with_reducible exact Nat.le_refl _ | with_reducible exact fun w => w | with_reducible rfl | with_reducible apply mk_after | with_reducible exact Nat.le_of_eq (List.length_map ..) | with_reducible exact List.length_filter_le .. | with_reducible exact Nat.zero_le _ | split | simp [*]))

theorem State_announceExpiry_after {s u : State} (h : Keeps s u) : Keeps s (State.announceExpiry u) := by
  unfold State.announceExpiry
  (try dsimp only)
  (repeat' split) <;> (try dsimp only) <;> (repeat' (first | with_reducible assumption | with_reducible apply State_announce_after | with_reducible exact Nat.le_refl _ | with_reducible exact fun w => w | with_reducible rfl | with_reducible apply mk_after))

theorem unknownKind_after {s u : State} (x0 : Msg) (h : Keeps s u) : Keeps s (unknownKind x0 u).1 := by
  unfold unknownKind
  (repeat' split) <;> (try dsimp only) <;> (repeat' (first | with_reducible assumption | with_reducible apply State_idle_after))

end Sys2Proof.Machine
end

