-- ==== Sys2Proof/Laws/KeepsIndex.lean ====
section
/-! SUPPORT. Laws/KeepsIndex.lean: the operations of Machine/Index.lean keep what `Keeps` names. -/

namespace Sys2Proof.Machine

theorem State_uncharge_after {s u : State} (payer : Option Nat) (h : Keeps s u) : Keeps s (State.uncharge u payer) := by
  unfold State.uncharge
  (repeat' split) <;> (try dsimp only) <;> (repeat' (first | with_reducible assumption | with_reducible apply State_updPeer_after))

theorem State_liveUp_after {s u : State} (n : Nat) (h : Keeps s u) : Keeps s (State.liveUp u n) := by
  unfold State.liveUp
  (repeat' split) <;> (try dsimp only) <;> (repeat' (first | with_reducible assumption | with_reducible apply State_updStripe_after))

theorem State_liveDown_after {s u : State} (n : Nat) (h : Keeps s u) : Keeps s (State.liveDown u n) := by
  unfold State.liveDown
  (repeat' split) <;> (try dsimp only) <;> (repeat' (first | with_reducible assumption | with_reducible apply State_updStripe_after))

theorem State_holdUp_after {s u : State} (n : Nat) (h : Keeps s u) : Keeps s (State.holdUp u n) := by
  unfold State.holdUp
  (repeat' split) <;> (try dsimp only) <;> (repeat' (first | with_reducible assumption | with_reducible apply State_updStripe_after))

theorem State_holdDown_after {s u : State} (n : Nat) (h : Keeps s u) : Keeps s (State.holdDown u n) := by
  unfold State.holdDown
  (repeat' split) <;> (try dsimp only) <;> (repeat' (first | with_reducible assumption | with_reducible apply State_updStripe_after))

theorem State_unlocate_after {s u : State} (e : Entry) (h : Keeps s u) : Keeps s (State.unlocate u e) := by
  unfold State.unlocate
  (repeat' split) <;> (try dsimp only) <;> (repeat' (first | with_reducible assumption | with_reducible apply State_liveDown_after))

theorem State_unhold_after {s u : State} (e : Entry) (h : Keeps s u) : Keeps s (State.unhold u e) := by
  unfold State.unhold
  (repeat' split) <;> (try dsimp only) <;> (repeat' (first | with_reducible assumption | with_reducible apply State_holdDown_after))

theorem State_createEntry_after {s u : State} (e : Entry) (h : Keeps s u) : Keeps s (State.createEntry u e) := by
  unfold State.createEntry
  (try dsimp only)
  (repeat' split) <;> (try dsimp only) <;> (repeat' (first | with_reducible assumption | with_reducible apply State_updPeer_after | with_reducible exact Nat.le_refl _ | with_reducible exact fun w => w | with_reducible rfl | with_reducible apply mk_after))

theorem State_reingest_after {s u : State} (e : Entry) (run : Nat) (pages : List Nat) (h : Keeps s u) : Keeps s (State.reingest u e run pages) := by
  unfold State.reingest
  (try dsimp only)
  (repeat' split) <;> (try dsimp only) <;> (repeat' (first | with_reducible assumption | with_reducible apply State_updEntry_after | with_reducible apply State_liveDown_after | with_reducible apply State_holdUp_after))

theorem State_markFilledFreed_after {s u : State} (l : Loc) (h : Keeps s u) : Keeps s (State.markFilledFreed u l) := by
  unfold State.markFilledFreed
  (repeat' split) <;> (try dsimp only) <;> (repeat' (first | with_reducible assumption | with_reducible apply State_updStripe_after))

theorem State_leaveSlot_after {s u : State} (e : Entry) (h : Keeps s u) : Keeps s (State.leaveSlot u e) := by
  unfold State.leaveSlot
  (repeat' split) <;> (try dsimp only) <;> (repeat' (first | with_reducible assumption | with_reducible apply State_markFilledFreed_after))

theorem State_expectRelease_after {s u : State} (stripes : List Nat) (h : Keeps s u) : Keeps s (State.expectRelease u stripes) := by
  unfold State.expectRelease
  (repeat' split) <;> (try dsimp only) <;> (repeat' (first | with_reducible assumption | with_reducible apply State_updStripe_after | with_reducible exact Nat.le_refl _ | with_reducible exact fun w => w | with_reducible rfl | (with_reducible apply foldl_after; intro _ _ _)))

theorem freeEntry_after {s u : State} (name : Name) (h : Keeps s u) : Keeps s (freeEntry name u).1 := by
  unfold freeEntry
  (try dsimp only)
  (repeat' split) <;> (try dsimp only) <;> (repeat' (first | with_reducible assumption | with_reducible apply State_idle_after | with_reducible apply State_dropEntry_after | with_reducible apply State_uncharge_after | with_reducible apply State_unlocate_after | with_reducible apply State_unhold_after | with_reducible apply State_leaveSlot_after | with_reducible apply State_expectRelease_after | with_reducible exact Nat.le_refl _ | with_reducible exact fun w => w | with_reducible rfl | with_reducible apply mk_after))

theorem releasedStripes_after {s u : State} (stripes : List Nat) (h : Keeps s u) : Keeps s (releasedStripes stripes u).1 := by
  unfold releasedStripes
  (try dsimp only)
  (repeat' split) <;> (try dsimp only) <;> (repeat' (first | with_reducible assumption | with_reducible apply State_updStripe_after | with_reducible exact Nat.le_refl _ | with_reducible exact fun w => w | with_reducible rfl | (with_reducible apply foldl_after; intro _ _ _)))

theorem decrement_after {s u : State} (name : Name) (h : Keeps s u) : Keeps s (decrement name u).1 := by
  unfold decrement
  (repeat' split) <;> (try dsimp only) <;> (repeat' (first | with_reducible assumption | with_reducible apply State_idle_after | with_reducible apply State_updEntry_after))

theorem abandonEntry_after {s u : State} (name : Name) (h : Keeps s u) : Keeps s (abandonEntry name u).1 := by
  unfold abandonEntry
  (try dsimp only)
  (repeat' split) <;> (try dsimp only) <;> (repeat' (first | with_reducible assumption | with_reducible apply State_idle_after | with_reducible apply State_updEntry_after | with_reducible apply State_dropEntry_after | with_reducible apply State_uncharge_after | with_reducible apply State_liveUp_after | with_reducible apply State_holdDown_after))

theorem State_stage_after {s u : State} (e : Entry) (h : Keeps s u) : Keeps s (State.stage u e) := by
  unfold State.stage
  (try dsimp only)
  (repeat' split) <;> (try dsimp only) <;> (repeat' (first | with_reducible assumption | with_reducible apply State_updEntry_after | with_reducible apply State_setPages_after | with_reducible exact Nat.le_refl _ | with_reducible exact fun w => w | with_reducible rfl | with_reducible apply mk_after))

theorem checkedEntry_after {s u : State} (name : Name) (h : Keeps s u) : Keeps s (checkedEntry name u).1 := by
  unfold checkedEntry
  (repeat' split) <;> (try dsimp only) <;> (repeat' (first | with_reducible assumption | with_reducible apply State_idle_after | with_reducible apply State_stage_after))

theorem markLost_after {s u : State} (name : Name) (loc : Loc) (h : Keeps s u) : Keeps s (markLost name loc u).1 := by
  unfold markLost
  (repeat' split) <;> (try dsimp only) <;> (repeat' (first | with_reducible assumption | with_reducible apply State_idle_after | with_reducible apply State_updEntry_after))

theorem State_setCached_after {s u : State} (name : Name) (b : Bool) (h : Keeps s u) : Keeps s (State.setCached u name b) := by
  unfold State.setCached
  (repeat' split) <;> (try dsimp only) <;> (repeat' (first | with_reducible assumption | with_reducible apply State_updEntry_after))

theorem State_storeEntry_after {s u : State} (e : Entry) (h : Keeps s u) : Keeps s (State.storeEntry u e) := by
  unfold State.storeEntry
  (repeat' split) <;> (try dsimp only) <;> (repeat' (first | with_reducible assumption | with_reducible apply State_updEntry_after | with_reducible apply State_unhold_after))

theorem reclaim_after {s u : State} (run : Nat) (h : Keeps s u) : Keeps s (reclaim run u).1 := by
  unfold reclaim
  (try dsimp only)
  (repeat' split) <;> (try dsimp only) <;> (repeat' (first | with_reducible assumption))

end Sys2Proof.Machine
end

