-- ==== Sys2Proof/Laws/KeepsBuffers.lean ====
section
/-! SUPPORT. Laws/KeepsBuffers.lean: the operations of Machine/Buffers.lean keep what `Keeps` names. -/

namespace Sys2Proof.Machine

theorem State_placeHold_after {s u : State} (pages : List Nat) (h : Keeps s u) : Keeps s (State.placeHold u pages) := by
  unfold State.placeHold
  (try dsimp only)
  (repeat' split) <;> (try dsimp only) <;> (repeat' (first | with_reducible assumption | with_reducible exact Nat.le_refl _ | with_reducible exact fun w => w | with_reducible rfl | with_reducible apply mk_after))

theorem pagesDue_after {s u : State} (pages : List Nat) (h : Keeps s u) : Keeps s (pagesDue pages u).1 := by
  unfold pagesDue
  (try dsimp only)
  (repeat' split) <;> (try dsimp only) <;> (repeat' (first | with_reducible assumption | with_reducible apply State_freeUp_after | with_reducible exact Nat.le_refl _ | with_reducible exact fun w => w | with_reducible rfl | with_reducible apply mk_after))

theorem releaseHold_after {s u : State} (pages : List Nat) (h : Keeps s u) : Keeps s (releaseHold pages u).1 := by
  unfold releaseHold
  (try dsimp only)
  (repeat' split) <;> (try dsimp only) <;> (repeat' (first | with_reducible assumption | with_reducible apply State_idle_after | with_reducible apply State_freeUp_after | with_reducible exact Nat.le_refl _ | with_reducible exact fun w => w | with_reducible rfl | with_reducible apply mk_after))

theorem stagingDemand_after {s u : State} (h : Keeps s u) : Keeps s (stagingDemand u).1 := by
  unfold stagingDemand
  (try dsimp only)
  (repeat' split) <;> (try dsimp only) <;> (repeat' (first | with_reducible assumption))

theorem State_assignParity_after {s u : State} (stripe : Nat) (pages : List Nat) (h : Keeps s u) : Keeps s (State.assignParity u stripe pages) := by
  unfold State.assignParity
  (try dsimp only)
  (repeat' split) <;> (try dsimp only) <;> (repeat' (first | with_reducible assumption | with_reducible apply State_updStripe_after | with_reducible apply State_setPages_after | with_reducible exact Nat.le_refl _ | with_reducible exact fun w => w | with_reducible rfl | with_reducible apply mk_after))

theorem askParity_after {s u : State} (stripe : Nat) (h : Keeps s u) : Keeps s (askParity stripe u).1 := by
  unfold askParity
  (try dsimp only)
  (repeat' split) <;> (try dsimp only) <;> (repeat' (first | with_reducible assumption | with_reducible apply State_assignParity_after | with_reducible exact Nat.le_refl _ | with_reducible exact fun w => w | with_reducible rfl | with_reducible apply mk_after))

theorem releaseParity_after {s u : State} (pages : List Nat) (h : Keeps s u) : Keeps s (releaseParity pages u).1 := by
  unfold releaseParity
  (try dsimp only)
  (repeat' split) <;> (try dsimp only) <;> (repeat' (first | with_reducible assumption | with_reducible apply State_freeUp_after | with_reducible apply State_assignParity_after | with_reducible exact Nat.le_refl _ | with_reducible exact fun w => w | with_reducible rfl | with_reducible apply mk_after))

theorem pagesFreed_after {s u : State} (h : Keeps s u) : Keeps s (pagesFreed u).1 := by
  unfold pagesFreed
  (try dsimp only)
  (repeat' split) <;> (try dsimp only) <;> (repeat' (first | with_reducible assumption | with_reducible apply State_assignParity_after | with_reducible exact Nat.le_refl _ | with_reducible exact fun w => w | with_reducible rfl | with_reducible apply mk_after))

theorem takeReserve_after {s u : State} (h : Keeps s u) : Keeps s (takeReserve u).1 := by
  unfold takeReserve
  (try dsimp only)
  (repeat' split) <;> (try dsimp only) <;> (repeat' (first | with_reducible assumption | with_reducible apply State_idle_after | with_reducible apply State_setPages_after | with_reducible exact Nat.le_refl _ | with_reducible exact fun w => w | with_reducible rfl | with_reducible apply mk_after))

theorem State_giveUpReserve_after {s u : State} (h : Keeps s u) : Keeps s (State.giveUpReserve u) := by
  unfold State.giveUpReserve
  (try dsimp only)
  (repeat' split) <;> (try dsimp only) <;> (repeat' (first | with_reducible assumption | with_reducible apply State_freeUp_after | with_reducible exact Nat.le_refl _ | with_reducible exact fun w => w | with_reducible rfl | with_reducible apply mk_after))

theorem State_updPos_after {s u : State} (i : SlotNo) (place : Nat) (f : WinPos → WinPos) (h : Keeps s u) : Keeps s (State.updPos u i place f) := by
  unfold State.updPos
  (repeat' split) <;> (try dsimp only) <;> (repeat' (first | with_reducible assumption | with_reducible apply State_updSlot_after))

theorem State_mapWindows_after {s u : State} (f : WinPos → WinPos) (h : Keeps s u) : Keeps s (State.mapWindows u f) := by
  unfold State.mapWindows
  (repeat' split) <;> (try dsimp only) <;> (repeat' (first | with_reducible assumption | with_reducible exact Nat.le_refl _ | with_reducible exact fun w => w | with_reducible rfl | with_reducible apply mk_after))

theorem State_tellLost_after {s u : State} (name : Name) (h : Keeps s u) : Keeps s (State.tellLost u name) := by
  unfold State.tellLost
  (try dsimp only)
  (repeat' split) <;> (try dsimp only) <;> (repeat' (first | with_reducible assumption | with_reducible apply State_mapWindows_after | with_reducible exact Nat.le_refl _ | with_reducible exact fun w => w | with_reducible rfl | with_reducible apply mk_after))

theorem State_makeCopy_after {s u : State} (r : FillReq) (h : Keeps s u) : Keeps s (State.makeCopy u r) := by
  unfold State.makeCopy
  (try dsimp only)
  (repeat' split) <;> (try dsimp only) <;> (repeat' (first | with_reducible assumption | with_reducible apply State_updStripe_after | with_reducible apply State_updPos_after | with_reducible exact Nat.le_refl _ | with_reducible exact fun w => w | with_reducible rfl | with_reducible apply mk_after))

theorem State_evict_after {s : State} (need : Nat) : ∀ (n : Nat) {u : State}, Keeps s u → Keeps s (u.evict need n)
  | 0, _, h => h
  | n + 1, u, h => by
    unfold State.evict
    split
    · exact h
    · split
      · exact h
      · refine State_evict_after need n (State_setCached_after _ _ ?_)
        apply mk_after h <;> first | exact Nat.le_refl _ | exact fun w => w | rfl

theorem State_tryFill_after {s u : State} {r : FillReq} {w : Work} (h : Keeps s u) (e : u.tryFill r = some w) : Keeps s w.1 := by
  unfold State.tryFill at e
  split at e
  · cases e
    exact State_updPos_after _ _ _ (State_touchCopy_after _ (State_updCopy_after _ _ h))
  · dsimp only at e
    split at e
    · cases e
      exact State_makeCopy_after _ (State_evict_after _ _ h)
    · cases e

theorem requestFill_after {s u : State} (r : FillReq) (h : Keeps s u) : Keeps s (requestFill r u).1 := by
  unfold requestFill
  split
  · rename_i w e
    exact State_tryFill_after h e
  · dsimp only
    apply mk_after (State_updPos_after _ _ _ h) <;> first | exact Nat.le_refl _ | exact fun w => w | rfl

theorem retryFills_after {s u : State} (h : Keeps s u) : Keeps s (retryFills u).1 := by
  unfold retryFills
  split
  · exact State_idle_after h
  · split
    · rename_i t ts e
      have k : Keeps s (t, ts).1 :=
        State_tryFill_after (by apply mk_after h <;> first | exact Nat.le_refl _ | exact fun w => w | rfl) e
      exact k
    · exact State_idle_after h

theorem unpin_after {s u : State} (id : Nat) (h : Keeps s u) : Keeps s (unpin id u).1 := by
  unfold unpin
  (try dsimp only)
  (repeat' split) <;> (try dsimp only) <;> (repeat' (first | with_reducible assumption | with_reducible apply State_idle_after | with_reducible apply State_updCopy_after))

theorem dropCopy_after {s u : State} (id : Nat) (h : Keeps s u) : Keeps s (dropCopy id u).1 := by
  unfold dropCopy
  (try dsimp only)
  (repeat' split) <;> (try dsimp only) <;> (repeat' (first | with_reducible assumption | with_reducible apply State_idle_after | with_reducible apply State_updCopy_after | with_reducible apply State_setCached_after))

theorem reapCopy_after {s u : State} (id : Nat) (h : Keeps s u) : Keeps s (reapCopy id u).1 := by
  unfold reapCopy
  (try dsimp only)
  (repeat' split) <;> (try dsimp only) <;> (repeat' (first | with_reducible assumption | with_reducible apply State_idle_after | with_reducible exact Nat.le_refl _ | with_reducible exact fun w => w | with_reducible rfl | with_reducible apply mk_after))

theorem landed_after {s u : State} (id : Nat) (h : Keeps s u) : Keeps s (landed id u).1 := by
  unfold landed
  (repeat' split) <;> (try dsimp only) <;> (repeat' (first | with_reducible assumption | with_reducible apply State_idle_after | with_reducible apply State_updCopy_after | with_reducible apply State_queueVerifyCheck_after))

theorem readFailed_after {s u : State} (id : Nat) (h : Keeps s u) : Keeps s (readFailed id u).1 := by
  unfold readFailed
  (try dsimp only)
  (repeat' split) <;> (try dsimp only) <;> (repeat' (first | with_reducible assumption | with_reducible apply State_updCopy_after))

theorem verified_after {s u : State} (id : Nat) (h : Keeps s u) : Keeps s (verified id u).1 := by
  unfold verified
  (try dsimp only)
  (repeat' split) <;> (try dsimp only) <;> (repeat' (first | with_reducible assumption | with_reducible apply State_idle_after | with_reducible apply State_updCopy_after | with_reducible apply State_touchCopy_after | with_reducible apply State_stage_after | with_reducible apply State_setCached_after | with_reducible apply State_mapWindows_after))

theorem checkResultVerify_after {s u : State} (l : Fin 2) (h : Keeps s u) : Keeps s (checkResultVerify l u).1 := by
  unfold checkResultVerify
  (try dsimp only)
  (repeat' split) <;> (try dsimp only) <;> (repeat' (first | with_reducible assumption | with_reducible apply State_idle_after | with_reducible apply State_updCopy_after | with_reducible apply State_stage_after | with_reducible exact Nat.le_refl _ | with_reducible exact fun w => w | with_reducible rfl | with_reducible apply mk_after))

theorem State_dramTurn_after {s u : State} (h : Keeps s u) : Keeps s (State.dramTurn u) := by
  unfold State.dramTurn
  (try dsimp only)
  (repeat' split) <;> (try dsimp only) <;> (repeat' (first | with_reducible assumption | with_reducible apply State_grantTurn_after | with_reducible exact Nat.le_refl _ | with_reducible exact fun w => w | with_reducible rfl | with_reducible apply mk_after))

end Sys2Proof.Machine
end

