-- ==== Sys2Proof/Laws/KeepsStripes.lean ====
section
/-! SUPPORT. Laws/KeepsStripes.lean: the operations of Machine/Stripes.lean keep what `Keeps` names. -/

namespace Sys2Proof.Machine

theorem State_draw_after {s u : State} (e : Entry) (n : Nat) (i : Nat) (h : Keeps s u) : Keeps s (State.draw u e n i) := by
  unfold State.draw
  (try dsimp only)
  (repeat' split) <;> (try dsimp only) <;> (repeat' (first | with_reducible assumption | with_reducible apply State_updEntry_after | with_reducible apply State_updStripe_after | with_reducible exact Nat.le_refl _ | with_reducible exact fun w => w | with_reducible rfl | with_reducible apply mk_after))

theorem State_walkOver_after {s : State} : ∀ (ns : List Name) {u : State}, Keeps s u → Keeps s (u.walkOver ns)
  | [], _, h => h
  | n :: ns, u, h => by
    unfold State.walkOver
    split
    · split
      · exact State_walkOver_after ns (State_draw_after _ _ _ h)
      · exact State_walkOver_after ns h
    · exact h
    · exact State_walkOver_after ns h

theorem walk_after {s u : State} (h : Keeps s u) : Keeps s (walk u).1 := by
  unfold walk
  split
  · exact State_walkOver_after _ h
  · exact State_idle_after h

theorem closeStripe_after {s u : State} (h : Keeps s u) : Keeps s (closeStripe u).1 := by
  unfold closeStripe
  (try dsimp only)
  (repeat' split) <;> (try dsimp only) <;> (repeat' (first | with_reducible assumption | with_reducible apply State_idle_after | with_reducible apply State_updStripe_after | with_reducible exact Nat.le_refl _ | with_reducible exact fun w => w | with_reducible rfl | with_reducible apply mk_after))

theorem closeExpiry_after {s u : State} (h : Keeps s u) : Keeps s (closeExpiry u).1 := by
  unfold closeExpiry
  (repeat' split) <;> (try dsimp only) <;> (repeat' (first | with_reducible assumption | with_reducible apply State_idle_after))

theorem State_takeParity_after {s u : State} (h : Keeps s u) : Keeps s (State.takeParity u) := by
  unfold State.takeParity
  (try dsimp only)
  (repeat' split) <;> (try dsimp only) <;> (repeat' (first | with_reducible assumption | with_reducible apply State_issueAll_after | with_reducible exact Nat.le_refl _ | with_reducible exact fun w => w | with_reducible rfl | with_reducible apply mk_after))

theorem State_takeRecon_after {s u : State} (h : Keeps s u) : Keeps s (State.takeRecon u) := by
  unfold State.takeRecon
  (try dsimp only)
  (repeat' split) <;> (try dsimp only) <;> (repeat' (first | with_reducible assumption | with_reducible apply State_issueAll_after | with_reducible apply State_updJob_after | with_reducible exact Nat.le_refl _ | with_reducible exact fun w => w | with_reducible rfl | with_reducible apply mk_after))

theorem State_takeJob_after {s u : State} (h : Keeps s u) : Keeps s (State.takeJob u) := by
  unfold State.takeJob
  (try dsimp only)
  (repeat' split) <;> (try dsimp only) <;> (repeat' (first | with_reducible assumption | with_reducible apply State_takeParity_after | with_reducible apply State_takeRecon_after))

theorem State_formParity_after {s u : State} (r : Stripe) (h : Keeps s u) : Keeps s (State.formParity u r) := by
  unfold State.formParity
  split
  · exact h
  · apply mk_after h <;> first
      | exact Nat.le_refl _
      | exact fun w => w
      | rfl
      | exact fun w => Memory.wf_foldl (fun _ _ k => Memory.wf_xorPages _ _ k) _ (Memory.wf_clearPages _ w)

theorem parityJobEnd_after {s u : State} (h : Keeps s u) : Keeps s (parityJobEnd u).1 := by
  unfold parityJobEnd
  (try dsimp only)
  (repeat' split) <;> (try dsimp only) <;> (repeat' (first | with_reducible assumption | with_reducible apply State_idle_after | with_reducible apply State_updStripe_after | with_reducible apply State_formParity_after | with_reducible exact Nat.le_refl _ | with_reducible exact fun w => w | with_reducible rfl | with_reducible apply mk_after))

theorem State_formResult_after {s u : State} (j : Job) (place : Nat) (h : Keeps s u) : Keeps s (State.formResult u j place) := by
  unfold State.formResult
  apply mk_after h <;> first
    | exact Nat.le_refl _
    | exact fun w => w
    | rfl
    | exact fun w => Memory.wf_foldl (fun _ _ k => Memory.wf_xorInto _ _ k) _ (Memory.wf_clear _ _ w)

theorem State_fillCopy_after {s u : State} (id : Nat) (bytes : List Byte) (h : Keeps s u) : Keeps s (State.fillCopy u id bytes) := by
  unfold State.fillCopy
  split
  · exact h
  · apply mk_after h <;> first
      | exact Nat.le_refl _
      | exact fun w => w
      | rfl
      | exact fun w => Memory.wf_putChunk _ _ _ w

theorem State_dropJob_after {s u : State} (id : Nat) (h : Keeps s u) : Keeps s (State.dropJob u id) := by
  unfold State.dropJob
  (try dsimp only)
  (repeat' split) <;> (try dsimp only) <;> (repeat' (first | with_reducible assumption | with_reducible exact Nat.le_refl _ | with_reducible exact fun w => w | with_reducible rfl | with_reducible apply mk_after))

theorem reconstructionJobEnd_after {s u : State} (h : Keeps s u) : Keeps s (reconstructionJobEnd u).1 := by
  unfold reconstructionJobEnd
  (try dsimp only)
  (repeat' split) <;> (try dsimp only) <;> (repeat' (first | with_reducible assumption | with_reducible apply State_idle_after | with_reducible apply State_updCopy_after | with_reducible apply State_updJob_after | with_reducible apply State_formResult_after | with_reducible apply State_fillCopy_after | with_reducible apply State_dropJob_after | with_reducible exact Nat.le_refl _ | with_reducible exact fun w => w | with_reducible rfl | with_reducible apply mk_after))

theorem State_queueWrite_after {s u : State} (n : Nat) (w : Nat × List Nat × Nat) (h : Keeps s u) : Keeps s (State.queueWrite u n w) := by
  unfold State.queueWrite
  (repeat' split) <;> (try dsimp only) <;> (repeat' (first | with_reducible assumption | with_reducible apply State_updBay_after))

theorem judgeQueueing_after {s u : State} (h : Keeps s u) : Keeps s (judgeQueueing u).1 := by
  unfold judgeQueueing
  (try dsimp only)
  (repeat' split) <;> (try dsimp only) <;> (repeat' (first | with_reducible assumption | with_reducible apply State_idle_after | with_reducible apply State_updStripe_after | with_reducible apply State_queueWrite_after | with_reducible exact Nat.le_refl _ | with_reducible exact fun w => w | with_reducible rfl | (with_reducible apply foldl_after; intro _ _ _) | with_reducible apply mk_after))

theorem writeEnded_after {s u : State} (n : Nat) (m : Nat) (done : Bool) (h : Keeps s u) : Keeps s (writeEnded n m done u).1 := by
  unfold writeEnded
  (repeat' split) <;> (try dsimp only) <;> (repeat' (first | with_reducible assumption | with_reducible apply State_idle_after | with_reducible apply State_updStripe_after))

theorem judgeWriteOut_after {s u : State} (n : Nat) (h : Keeps s u) : Keeps s (judgeWriteOut n u).1 := by
  unfold judgeWriteOut
  (repeat' split) <;> (try dsimp only) <;> (repeat' (first | with_reducible assumption | with_reducible apply State_idle_after | with_reducible apply State_updStripe_after))

theorem appendStored_after {s u : State} (n : Nat) (i : Nat) (h : Keeps s u) : Keeps s (appendStored n i u).1 := by
  unfold appendStored
  (repeat' split) <;> (try dsimp only) <;> (repeat' (first | with_reducible assumption | with_reducible apply State_idle_after))

theorem markStored_after {s u : State} (n : Nat) (name : Name) (h : Keeps s u) : Keeps s (markStored n name u).1 := by
  unfold markStored
  (try dsimp only)
  (repeat' split) <;> (try dsimp only) <;> (repeat' (first | with_reducible assumption | with_reducible apply State_updEntry_after | with_reducible apply State_updStripe_after))

theorem writeOutTail_after {s u : State} (n : Nat) (h : Keeps s u) : Keeps s (writeOutTail n u).1 := by
  unfold writeOutTail
  (repeat' split) <;> (try dsimp only) <;> (repeat' (first | with_reducible assumption | with_reducible apply State_idle_after | with_reducible apply State_updStripe_after))

theorem judgeStored_after {s u : State} (n : Nat) (h : Keeps s u) : Keeps s (judgeStored n u).1 := by
  unfold judgeStored
  (repeat' split) <;> (try dsimp only) <;> (repeat' (first | with_reducible assumption | with_reducible apply State_idle_after))

theorem slotStored_after {s u : State} (n : Nat) (i : Nat) (h : Keeps s u) : Keeps s (slotStored n i u).1 := by
  unfold slotStored
  (repeat' split) <;> (try dsimp only) <;> (repeat' (first | with_reducible assumption | with_reducible apply State_idle_after | with_reducible apply State_storeEntry_after))

theorem stripeHeld_after {s u : State} (n : Nat) (h : Keeps s u) : Keeps s (stripeHeld n u).1 := by
  unfold stripeHeld
  (try dsimp only)
  (repeat' split) <;> (try dsimp only) <;> (repeat' (first | with_reducible assumption | with_reducible apply State_idle_after | with_reducible apply State_updStripe_after | with_reducible exact Nat.le_refl _ | with_reducible exact fun w => w | with_reducible rfl | with_reducible apply mk_after))

theorem judgeStripe_after {s u : State} (n : Nat) (h : Keeps s u) : Keeps s (judgeStripe n u).1 := by
  unfold judgeStripe
  (repeat' split) <;> (try dsimp only) <;> (repeat' (first | with_reducible assumption | with_reducible apply State_idle_after | with_reducible apply State_updStripe_after | with_reducible apply State_dropStripe_after))

theorem busyDown_after {s u : State} (n : Nat) (h : Keeps s u) : Keeps s (busyDown n u).1 := by
  unfold busyDown
  (try dsimp only)
  (repeat' split) <;> (try dsimp only) <;> (repeat' (first | with_reducible assumption | with_reducible apply State_updStripe_after))

theorem State_withdraw_after {s u : State} (p : DiskCmd → Bool) (h : Keeps s u) : Keeps s (State.withdraw u p) := by
  unfold State.withdraw
  (repeat' split) <;> (try dsimp only) <;> (repeat' (first | with_reducible assumption | with_reducible exact Nat.le_refl _ | with_reducible exact fun w => w | with_reducible rfl | with_reducible apply mk_after))

theorem State_abandonStripe_after {s u : State} (n : Nat) (h : Keeps s u) : Keeps s (State.abandonStripe u n).1 := by
  unfold State.abandonStripe
  (try dsimp only)
  (repeat' split) <;> (try dsimp only) <;> (repeat' (first | with_reducible assumption | with_reducible apply State_updStripe_after | with_reducible apply State_withdraw_after | with_reducible exact Nat.le_refl _ | with_reducible exact fun w => w | with_reducible rfl | with_reducible apply mk_after))

theorem State_abandonAll_after {s u : State} (h : Keeps s u) : Keeps s (State.abandonAll u).1 := by
  have key : ∀ (ns : List Nat) (a : State × List Name), Keeps s a.1 → Keeps s (ns.foldl (fun (a : State × List Name) n =>
      ((a.1.abandonStripe n).1, a.2 ++ (a.1.abandonStripe n).2)) a).1 := by
    intro ns
    induction ns with
    | nil => exact fun _ k => k
    | cons n ns ih => exact fun a k => ih _ (State_abandonStripe_after n k)
  unfold State.abandonAll
  apply mk_after (key _ _ h) <;> first | exact Nat.le_refl _ | exact fun w => w | rfl

theorem abandonTail_after {s u : State} (n : Nat) (h : Keeps s u) : Keeps s (abandonTail n u).1 := by
  unfold abandonTail
  (repeat' split) <;> (try dsimp only) <;> (repeat' (first | with_reducible assumption | with_reducible apply State_idle_after | with_reducible apply State_updStripe_after))

theorem storeBroken_after {s u : State} (h : Keeps s u) : Keeps s (storeBroken u).1 := by
  unfold storeBroken
  (try dsimp only)
  (repeat' split) <;> (try dsimp only) <;> (repeat' (first | with_reducible assumption | with_reducible apply State_abandonAll_after))

theorem routeRead_after {s u : State} (id : Nat) (h : Keeps s u) : Keeps s (routeRead id u).1 := by
  unfold routeRead
  (try dsimp only)
  (repeat' split) <;> (try dsimp only) <;> (repeat' (first | with_reducible assumption | with_reducible apply State_idle_after))

theorem newJob_after {s u : State} (kind : JobKind) (n : Nat) (target : Nat) (length : Nat) (h : Keeps s u) : Keeps s (newJob kind n target length u).1 := by
  unfold newJob
  (try dsimp only)
  (repeat' split) <;> (try dsimp only) <;> (repeat' (first | with_reducible assumption | with_reducible exact Nat.le_refl _ | with_reducible exact fun w => w | with_reducible rfl | with_reducible apply mk_after))

theorem startJob_after {s u : State} (id : Nat) (h : Keeps s u) : Keeps s (startJob id u).1 := by
  unfold startJob
  (try dsimp only)
  (repeat' split) <;> (try dsimp only) <;> (repeat' (first | with_reducible assumption | with_reducible apply State_idle_after | with_reducible apply State_updStripe_after | with_reducible apply State_updJob_after))

theorem freePlace_after {s u : State} (h : Keeps s u) : Keeps s (freePlace u).1 := by
  unfold freePlace
  (try dsimp only)
  (repeat' split) <;> (try dsimp only) <;> (repeat' (first | with_reducible assumption | with_reducible apply State_idle_after | with_reducible apply State_updJob_after | with_reducible exact Nat.le_refl _ | with_reducible exact fun w => w | with_reducible rfl | with_reducible apply mk_after))

theorem State_jobImpossible_after {s u : State} (j : Job) (h : Keeps s u) : Keeps s (State.jobImpossible u j).1 := by
  unfold State.jobImpossible
  (repeat' split) <;> (try dsimp only) <;> (repeat' (first | with_reducible assumption | with_reducible apply State_dropJob_after))

theorem sourceEnded_after {s u : State} (id : Nat) (m : Nat) (n : Nat) (landed : Bool) (h : Keeps s u) : Keeps s (sourceEnded id m n landed u).1 := by
  unfold sourceEnded
  (try dsimp only)
  (repeat' split) <;> (try dsimp only) <;> (repeat' (first | with_reducible assumption | with_reducible apply State_updStripe_after | with_reducible apply State_updJob_after | with_reducible apply State_stage_after | with_reducible apply landed_after | with_reducible apply State_jobImpossible_after | with_reducible exact Nat.le_refl _ | with_reducible exact fun w => w | with_reducible rfl | with_reducible apply mk_after))

theorem State_withdrawn_after {s u : State} (id : Nat) (h : Keeps s u) : Keeps s (State.withdrawn u id) := by
  unfold State.withdrawn
  (repeat' split) <;> (try dsimp only) <;> (repeat' (first | with_reducible assumption | with_reducible apply State_updCopy_after))

theorem withdrawRead_after {s u : State} (id : Nat) (h : Keeps s u) : Keeps s (withdrawRead id u).1 := by
  unfold withdrawRead
  (try dsimp only)
  (repeat' split) <;> (try dsimp only) <;> (repeat' (first | with_reducible assumption | with_reducible apply State_idle_after | with_reducible apply State_updStripe_after | with_reducible apply State_stage_after | with_reducible apply State_dropJob_after | with_reducible apply State_withdraw_after | with_reducible apply State_withdrawn_after | with_reducible exact Nat.le_refl _ | with_reducible exact fun w => w | with_reducible rfl | with_reducible apply mk_after))

theorem repair_after {s u : State} (id : Nat) (h : Keeps s u) : Keeps s (repair id u).1 := by
  unfold repair
  (try dsimp only)
  (repeat' split) <;> (try dsimp only) <;> (repeat' (first | with_reducible assumption | with_reducible apply State_idle_after | with_reducible apply State_updStripe_after))

theorem repaired_after {s u : State} (id : Nat) (h : Keeps s u) : Keeps s (repaired id u).1 := by
  unfold repaired
  (repeat' split) <;> (try dsimp only) <;> (repeat' (first | with_reducible assumption | with_reducible apply State_idle_after | with_reducible apply State_updJob_after))

theorem repairFailed_after {s u : State} (id : Nat) (h : Keeps s u) : Keeps s (repairFailed id u).1 := by
  unfold repairFailed
  (try dsimp only)
  (repeat' split) <;> (try dsimp only) <;> (repeat' (first | with_reducible assumption | with_reducible apply State_idle_after | with_reducible apply State_dropJob_after))

theorem repairEnded_after {s u : State} (id : Nat) (h : Keeps s u) : Keeps s (repairEnded id u).1 := by
  unfold repairEnded
  (try dsimp only)
  (repeat' split) <;> (try dsimp only) <;> (repeat' (first | with_reducible assumption | with_reducible apply State_idle_after | with_reducible apply State_updCopy_after | with_reducible apply State_dropJob_after))

theorem repairDemand_after {s u : State} (h : Keeps s u) : Keeps s (repairDemand u).1 := by
  unfold repairDemand
  (try dsimp only)
  (repeat' split) <;> (try dsimp only) <;> (repeat' (first | with_reducible assumption))

theorem judgeCond_after {s u : State} (h : Keeps s u) : Keeps s (judgeCond u).1 := by
  unfold judgeCond
  (try dsimp only)
  (repeat' split) <;> (try dsimp only) <;> (repeat' (first | with_reducible assumption | with_reducible apply State_idle_after | with_reducible exact Nat.le_refl _ | with_reducible exact fun w => w | with_reducible rfl | with_reducible apply mk_after))

theorem labelRound_after {s u : State} (h : Keeps s u) : Keeps s (labelRound u).1 := by
  unfold labelRound
  (try dsimp only)
  (repeat' split) <;> (try dsimp only) <;> (repeat' (first | with_reducible assumption | with_reducible exact Nat.le_refl _ | with_reducible exact fun w => w | with_reducible rfl | with_reducible apply mk_after))

theorem State_failMember_after {s u : State} (m : Nat) (h : Keeps s u) : Keeps s (State.failMember u m) := by
  unfold State.failMember
  (try dsimp only)
  (repeat' split) <;> (try dsimp only) <;> (repeat' (first | with_reducible assumption | with_reducible apply State_updMember_after))

theorem memberFailed_after {s u : State} (m : Nat) (h : Keeps s u) : Keeps s ((memberFailed m u).1) := by
  unfold memberFailed
  (try dsimp only)
  (repeat' split) <;> (try dsimp only) <;> (repeat' (first | with_reducible assumption | with_reducible apply State_idle_after | with_reducible apply State_failMember_after))

theorem State_adopt_after {s u : State} (b : BayNo) (m : Nat) (h : Keeps s u) : Keeps s (State.adopt u b m) := by
  unfold State.adopt
  (repeat' split) <;> (try dsimp only) <;> (repeat' (first | with_reducible assumption | with_reducible apply State_updBay_after))

theorem judgeRebuild_after {s u : State} (h : Keeps s u) : Keeps s (judgeRebuild u).1 := by
  unfold judgeRebuild
  (try dsimp only)
  (repeat' split) <;> (try dsimp only) <;> (repeat' (first | with_reducible assumption | with_reducible apply State_idle_after | with_reducible apply State_updMember_after | with_reducible apply State_adopt_after | with_reducible exact Nat.le_refl _ | with_reducible exact fun w => w | with_reducible rfl | with_reducible apply mk_after))

theorem rebuildStep_after {s u : State} (h : Keeps s u) : Keeps s (rebuildStep u).1 := by
  unfold rebuildStep
  (try dsimp only)
  (repeat' split) <;> (try dsimp only) <;> (repeat' (first | with_reducible assumption | with_reducible apply State_idle_after | with_reducible apply State_updStripe_after | with_reducible exact Nat.le_refl _ | with_reducible exact fun w => w | with_reducible rfl | with_reducible apply mk_after))

theorem rebuildWritten_after {s u : State} (id : Nat) (h : Keeps s u) : Keeps s (rebuildWritten id u).1 := by
  unfold rebuildWritten
  (try dsimp only)
  (repeat' split) <;> (try dsimp only) <;> (repeat' (first | with_reducible assumption | with_reducible apply State_idle_after | with_reducible apply State_updStripe_after | with_reducible apply State_dropJob_after | with_reducible exact Nat.le_refl _ | with_reducible exact fun w => w | with_reducible rfl | with_reducible apply mk_after))

theorem rebuildEnd_after {s u : State} (h : Keeps s u) : Keeps s (rebuildEnd u).1 := by
  unfold rebuildEnd
  (try dsimp only)
  (repeat' split) <;> (try dsimp only) <;> (repeat' (first | with_reducible assumption | with_reducible apply State_idle_after | with_reducible apply State_updMember_after | with_reducible exact Nat.le_refl _ | with_reducible exact fun w => w | with_reducible rfl | with_reducible apply mk_after))

theorem haltRebuild_after {s u : State} (h : Keeps s u) : Keeps s (haltRebuild u).1 := by
  unfold haltRebuild
  have k := State_withdraw_after DiskCmd.isRebuildWrite h
  generalize State.withdraw u DiskCmd.isRebuildWrite = v at k ⊢
  (try dsimp only)
  (repeat' split) <;> (try dsimp only) <;> (repeat' (first | with_reducible assumption | with_reducible apply State_idle_after | with_reducible exact Nat.le_refl _ | with_reducible exact fun w => w | with_reducible rfl | with_reducible apply mk_after))

end Sys2Proof.Machine
end

