-- ==== Sys2Proof/Laws/KeepsDisks.lean ====
section
/-! SUPPORT. Laws/KeepsDisks.lean: the operations of Machine/Disks.lean keep what `Keeps` names. -/

namespace Sys2Proof.Machine

theorem offerCmd_after {s u : State} (b : BayNo) (g : Giver) (c : DiskCmd) (h : Keeps s u) : Keeps s (offerCmd b g c u).1 := by
  unfold offerCmd
  (repeat' split) <;> (try dsimp only) <;> (repeat' (first | with_reducible assumption | with_reducible apply State_updBay_after))

theorem DiskCmd_issued_after {s u : State} (c : DiskCmd) (h : Keeps s u) : Keeps s (DiskCmd.issued c u).1 := by
  unfold DiskCmd.issued
  (repeat' split) <;> (try dsimp only) <;> (repeat' (first | with_reducible assumption | with_reducible apply State_idle_after | with_reducible apply State_updJob_after))

theorem State_launch_after {s u : State} (b : BayNo) (c : DiskCmd) (h : Keeps s u) : Keeps s (State.launch u b c) := by
  unfold State.launch
  (repeat' split) <;> (try dsimp only) <;> (repeat' (first | with_reducible assumption | with_reducible apply State_updBay_after | with_reducible apply State_issue_after))

theorem pump_after {s u : State} (b : BayNo) (h : Keeps s u) : Keeps s (pump b u).1 := by
  unfold pump
  (try dsimp only)
  (repeat' split) <;> (try dsimp only) <;> (repeat' (first | with_reducible assumption | with_reducible apply State_idle_after | with_reducible apply State_updBay_after | with_reducible apply DiskCmd_issued_after | with_reducible apply State_launch_after))

theorem State_chooseOffer_after {s u : State} (b : BayNo) (h : Keeps s u) : Keeps s (State.chooseOffer u b).1 := by
  unfold State.chooseOffer
  (repeat' split) <;> (try dsimp only) <;> (repeat' (first | with_reducible assumption | with_reducible exact Nat.le_refl _ | with_reducible exact fun w => w | with_reducible rfl | with_reducible apply mk_after))

theorem State_joinKept_after {s u : State} (b : BayNo) (g : Giver) (h : Keeps s u) : Keeps s (State.joinKept u b g) := by
  unfold State.joinKept
  (repeat' split) <;> (try dsimp only) <;> (repeat' (first | with_reducible assumption | with_reducible apply State_updBay_after))

theorem placeFreed_after {s u : State} (b : BayNo) (h : Keeps s u) : Keeps s (placeFreed b u).1 := by
  have k := State_chooseOffer_after b h
  unfold placeFreed
  split
  · generalize u.chooseOffer b = r at k ⊢
    obtain ⟨v, o⟩ := r
    match o with
    | none => exact State_idle_after k
    | some (.giver g) => exact State_joinKept_after _ _ k
    | some .stripe => exact k
  · exact State_idle_after h

theorem State_landFlight_after {s u : State} (b : BayNo) (h : Keeps s u) : Keeps s (State.landFlight u b) := by
  unfold State.landFlight
  (repeat' split) <;> (try dsimp only) <;> (repeat' (first | with_reducible assumption | with_reducible apply State_updBay_after))

theorem readSlotDone_after {s u : State} (b : BayNo) (attempt : Nat) (data : List Byte) (h : Keeps s u) : Keeps s (readSlotDone b attempt data u).1 := by
  unfold readSlotDone
  (try dsimp only)
  (repeat' split) <;> (try dsimp only) <;> (repeat' (first | with_reducible assumption | with_reducible apply State_idle_after | with_reducible apply State_fillCopy_after | with_reducible apply State_landFlight_after | with_reducible exact Nat.le_refl _ | with_reducible exact fun w => w | with_reducible rfl | exact fun w => Memory.wf_writeBytes _ _ w | with_reducible apply mk_after))

theorem writeSlotDone_after {s u : State} (b : BayNo) (attempt : Nat) (h : Keeps s u) : Keeps s (writeSlotDone b attempt u).1 := by
  unfold writeSlotDone
  (repeat' split) <;> (try dsimp only) <;> (repeat' (first | with_reducible assumption | with_reducible apply State_idle_after | with_reducible apply State_landFlight_after))

theorem writeJournalDone_after {s u : State} (b : BayNo) (attempt : Nat) (h : Keeps s u) : Keeps s (writeJournalDone b attempt u).1 := by
  unfold writeJournalDone
  (repeat' split) <;> (try dsimp only) <;> (repeat' (first | with_reducible assumption | with_reducible apply State_idle_after | with_reducible apply State_landFlight_after))

theorem readJournalDone_after {s u : State} (b : BayNo) (attempt : Nat) (data : List Byte) (h : Keeps s u) : Keeps s (readJournalDone b attempt data u).1 := by
  unfold readJournalDone
  (repeat' split) <;> (try dsimp only) <;> (repeat' (first | with_reducible assumption | with_reducible apply State_idle_after | with_reducible apply State_landFlight_after))

theorem cmdFailed_after {s u : State} (x0 : BayNo) (c : DiskCmd) (h : Keeps s u) : Keeps s (cmdFailed x0 c u).1 := by
  unfold cmdFailed
  (repeat' split) <;> (try dsimp only) <;> (repeat' (first | with_reducible assumption | with_reducible apply State_idle_after | with_reducible apply State_updCopy_after))

theorem declareFailed_after {s u : State} (b : BayNo) (removed : Bool) (h : Keeps s u) : Keeps s (declareFailed b removed u).1 := by
  unfold declareFailed
  (try dsimp only)
  (repeat' split) <;> (try dsimp only) <;> (repeat' (first | with_reducible assumption))

theorem endPort_after {s u : State} (b : BayNo) (h : Keeps s u) : Keeps s (endPort b u).1 := by
  unfold endPort
  (try dsimp only)
  (repeat' split) <;> (try dsimp only) <;> (repeat' (first | with_reducible assumption | with_reducible apply State_updBay_after))

theorem leaveMember_after {s u : State} (b : BayNo) (removed : Bool) (h : Keeps s u) : Keeps s (leaveMember b removed u).1 := by
  unfold leaveMember
  (try dsimp only)
  (repeat' split) <;> (try dsimp only) <;> (repeat' (first | with_reducible assumption | with_reducible apply State_updBay_after))

theorem attemptFailed_after {s u : State} (b : BayNo) (h : Keeps s u) : Keeps s ((attemptFailed b u).1) := by
  unfold attemptFailed
  (try dsimp only)
  (repeat' split) <;> (try dsimp only) <;> (repeat' (first | with_reducible assumption | with_reducible apply State_idle_after | with_reducible apply State_issue_after | with_reducible apply State_updBay_after))

theorem errorReport_after {s u : State} (b : BayNo) (attempt : Nat) (h : Keeps s u) : Keeps s ((errorReport b attempt u).1) := by
  unfold errorReport
  (try dsimp only)
  (repeat' split) <;> (try dsimp only) <;> (repeat' (first | with_reducible assumption | with_reducible apply State_idle_after | with_reducible apply attemptFailed_after))

theorem commandTimeout_after {s u : State} (b : BayNo) (h : Keeps s u) : Keeps s (commandTimeout b u).1 := by
  unfold commandTimeout
  (repeat' split) <;> (try dsimp only) <;> (repeat' (first | with_reducible assumption | with_reducible apply State_idle_after | with_reducible apply DiskCmd_issued_after | with_reducible apply attemptFailed_after))

theorem State_beginSpin_after {s u : State} (b : BayNo) (h : Keeps s u) : Keeps s (State.beginSpin u b) := by
  unfold State.beginSpin
  (repeat' split) <;> (try dsimp only) <;> (repeat' (first | with_reducible assumption | with_reducible apply State_updBay_after))

theorem spinUp_after {s u : State} (b : BayNo) (h : Keeps s u) : Keeps s (spinUp b u).1 := by
  unfold spinUp
  (try dsimp only)
  (repeat' split) <;> (try dsimp only) <;> (repeat' (first | with_reducible assumption | with_reducible apply State_idle_after | with_reducible apply State_updBay_after | with_reducible apply State_beginSpin_after))

theorem spinDownDone_after {s u : State} (b : BayNo) (attempt : Nat) (h : Keeps s u) : Keeps s (spinDownDone b attempt u).1 := by
  unfold spinDownDone
  (try dsimp only)
  (repeat' split) <;> (try dsimp only) <;> (repeat' (first | with_reducible assumption | with_reducible apply State_idle_after | with_reducible apply State_updBay_after | with_reducible apply State_landFlight_after | with_reducible apply State_beginSpin_after))

theorem spinUpReady_after {s u : State} (b : BayNo) (h : Keeps s u) : Keeps s (spinUpReady b u).1 := by
  unfold spinUpReady
  (try dsimp only)
  (repeat' split) <;> (try dsimp only) <;> (repeat' (first | with_reducible assumption | with_reducible apply State_idle_after | with_reducible apply State_updBay_after | with_reducible apply State_launch_after))

theorem spinUpTimeout_after {s u : State} (b : BayNo) (h : Keeps s u) : Keeps s (spinUpTimeout b u).1 := by
  unfold spinUpTimeout
  (try dsimp only)
  (repeat' split) <;> (try dsimp only) <;> (repeat' (first | with_reducible assumption | with_reducible apply State_idle_after | with_reducible apply State_updBay_after))

theorem powerCycleOn_after {s u : State} (b : BayNo) (h : Keeps s u) : Keeps s (powerCycleOn b u).1 := by
  unfold powerCycleOn
  (try dsimp only)
  (repeat' split) <;> (try dsimp only) <;> (repeat' (first | with_reducible assumption | with_reducible apply State_idle_after | with_reducible apply State_updBay_after))

theorem startProbe_after {s u : State} (b : BayNo) (h : Keeps s u) : Keeps s (startProbe b u).1 := by
  unfold startProbe
  (try dsimp only)
  (repeat' split) <;> (try dsimp only) <;> (repeat' (first | with_reducible assumption | with_reducible apply State_updBay_after))

theorem capacityReadEnd_after {s u : State} (b : BayNo) (attempt : Nat) (capacity : Nat) (h : Keeps s u) : Keeps s (capacityReadEnd b attempt capacity u).1 := by
  unfold capacityReadEnd
  (repeat' split) <;> (try dsimp only) <;> (repeat' (first | with_reducible assumption | with_reducible apply State_idle_after | with_reducible apply State_updBay_after | with_reducible apply State_launch_after))

theorem classify_after {s u : State} (b : BayNo) (h : Keeps s u) : Keeps s (classify b u).1 := by
  unfold classify
  (repeat' split) <;> (try dsimp only) <;> (repeat' (first | with_reducible assumption | with_reducible apply State_idle_after | with_reducible apply State_updBay_after | with_reducible apply State_launch_after))

theorem labelDone_after {s u : State} (b : BayNo) (attempt : Nat) (data : List Byte) (h : Keeps s u) : Keeps s (labelDone b attempt data u).1 := by
  unfold labelDone
  (try dsimp only)
  (repeat' split) <;> (try dsimp only) <;> (repeat' (first | with_reducible assumption | with_reducible apply State_idle_after | with_reducible apply State_updBay_after | with_reducible apply State_landFlight_after))

theorem probeFailed_after {s u : State} (b : BayNo) (h : Keeps s u) : Keeps s (probeFailed b u).1 := by
  unfold probeFailed
  (try dsimp only)
  (repeat' split) <;> (try dsimp only) <;> (repeat' (first | with_reducible assumption | with_reducible apply State_updBay_after))

theorem diskInserted_after {s u : State} (b : BayNo) (same : Bool) (h : Keeps s u) : Keeps s (diskInserted b same u).1 := by
  unfold diskInserted
  (try dsimp only)
  (repeat' split) <;> (try dsimp only) <;> (repeat' (first | with_reducible assumption | with_reducible apply State_idle_after | with_reducible apply State_updBay_after))

theorem removeDisk_after {s u : State} (b : BayNo) (h : Keeps s u) : Keeps s (removeDisk b u).1 := by
  unfold removeDisk
  (try dsimp only)
  (repeat' split) <;> (try dsimp only) <;> (repeat' (first | with_reducible assumption | with_reducible apply State_updBay_after))

theorem diskRemoved_after {s u : State} (b : BayNo) (h : Keeps s u) : Keeps s (diskRemoved b u).1 := by
  unfold diskRemoved
  (try dsimp only)
  (repeat' split) <;> (try dsimp only) <;> (repeat' (first | with_reducible assumption | with_reducible apply State_idle_after | with_reducible apply State_updBay_after | with_reducible apply removeDisk_after))

theorem takeLatch_after {s u : State} (b : BayNo) (h : Keeps s u) : Keeps s (takeLatch b u).1 := by
  unfold takeLatch
  (try dsimp only)
  (repeat' split) <;> (try dsimp only) <;> (repeat' (first | with_reducible assumption | with_reducible apply State_idle_after | with_reducible apply State_updBay_after | with_reducible apply removeDisk_after))

theorem reinsert_after {s u : State} (b : BayNo) (h : Keeps s u) : Keeps s (reinsert b u).1 := by
  unfold reinsert
  (try dsimp only)
  (repeat' split) <;> (try dsimp only) <;> (repeat' (first | with_reducible assumption | with_reducible apply State_updBay_after))

end Sys2Proof.Machine
end

