-- ==== Sys2Proof/Laws/KeepsJournal.lean ====
section
/-! SUPPORT. Laws/KeepsJournal.lean: the operations of Machine/Journal.lean keep what `Keeps` names. -/

namespace Sys2Proof.Machine

theorem State_entered_after {s u : State} (r : Record) (p : Pos) (h : Keeps s u) : Keeps s (State.entered u r p) := by
  unfold State.entered
  (try dsimp only)
  (repeat' split) <;> (try dsimp only) <;> (repeat' (first | with_reducible assumption | with_reducible exact Nat.le_refl _ | with_reducible exact fun w => w | with_reducible rfl | with_reducible apply mk_after))

theorem State_sealBlock_after {s u : State} (h : Keeps s u) : Keeps s (State.sealBlock u) := by
  unfold State.sealBlock
  (try dsimp only)
  (repeat' split) <;> (try dsimp only) <;> (repeat' (first | with_reducible assumption | with_reducible exact Nat.le_refl _ | with_reducible exact fun w => w | with_reducible rfl | with_reducible apply mk_after | with_reducible exact Nat.le_of_eq (List.length_map ..)))

theorem State_openNew_after {s u : State} (r : Record) (ts : List Task) (hb : u.buf.blocks.length < Config.journalPlaces)
    (h : Keeps s u) : Keeps s (State.openNew u r ts).1 := by
  unfold State.openNew
  dsimp only
  refine State_issue_after _ _ (State_entered_after _ _ ⟨h.pending, h.now, h.image, h.straps, fun i => ?_⟩)
  have j := h.inv i
  exact ⟨j.staging, j.cache, j.places, j.fifo, j.control, j.asks, j.runs, j.checks, by simpa using hb⟩

theorem be_length : ∀ k n, (be k n).length = k
  | 0, _ => rfl
  | k + 1, n => by rw [be, List.length_cons, be_length k]

theorem freshen_size (s : State) (r : Record) : (s.freshen r).size = r.size := by
  cases r <;> simp [State.freshen, Record.size, Record.parts, be_length]

theorem State_enter_after {s u : State} (record : Record) (hr : u.roomFor record = true) (h : Keeps s u) :
    Keeps s (State.enter u record).1 := by
  unfold State.roomFor at hr
  unfold State.enter
  split
  · rename_i b hb
    dsimp only
    split
    · refine State_issue_after .journal (u.freshen record).size (u := State.entered _ _ _) (State_entered_after _ _ ?_)
      apply mk_after h <;> first
        | exact Nat.le_refl _
        | exact fun w => w
        | rfl
        | exact Nat.le_of_eq (List.length_map ..)
    · rename_i hn
      refine State_openNew_after _ _ ?_ (State_sealBlock_after h)
      have hl : u.sealBlock.buf.blocks.length = u.buf.blocks.length := List.length_map ..
      rw [hl]
      rw [freshen_size] at hn
      simpa [hb, hn] using hr
  · rename_i hb
    refine State_openNew_after _ _ ?_ h
    simpa [hb] using hr

theorem State_pause_after {s u : State} (r : Record) (rest : List Task) (h : Keeps s u) : Keeps s ((State.pause u r rest).1) := by
  unfold State.pause
  (try dsimp only)
  (repeat' split) <;> (try dsimp only) <;> (repeat' (first | with_reducible assumption | with_reducible exact Nat.le_refl _ | with_reducible exact fun w => w | with_reducible rfl | with_reducible apply mk_after))

theorem State_append_after {s u : State} (r : Record) (rest : List Task) (h : Keeps s u) : Keeps s (State.append u r rest).1 := by
  unfold State.append
  split
  · exact h
  · split
    · dsimp only
      refine State_pause_after _ _ ?_
      split
      · exact State_sealBlock_after h
      · exact h
    · rename_i hr
      split
      · exact State_enter_after _ (by simp_all) h
      · exact State_pause_after _ _ h

theorem resumeWork_after {s u : State} (h : Keeps s u) : Keeps s (resumeWork u).1 := by
  unfold resumeWork
  split
  · exact State_idle_after h
  · rename_i p ps _
    split
    · exact State_idle_after h
    · rename_i hr
      have k : Keeps s { u with buf.appendWait := ps, buf.resuming := true } := by
        apply mk_after h <;> first | exact Nat.le_refl _ | exact fun w => w | rfl
      refine State_enter_after p.record ?_ k
      have hr' : u.roomFor p.record = true := by simp_all
      exact hr'

theorem endResume_after {s u : State} (h : Keeps s u) : Keeps s (endResume u).1 := by
  unfold endResume
  (try dsimp only)
  (repeat' split) <;> (try dsimp only) <;> (repeat' (first | with_reducible assumption | with_reducible exact Nat.le_refl _ | with_reducible exact fun w => w | with_reducible rfl | with_reducible apply mk_after))

theorem closeBlock_after {s u : State} (h : Keeps s u) : Keeps s (closeBlock u).1 := by
  unfold closeBlock
  (repeat' split) <;> (try dsimp only) <;> (repeat' (first | with_reducible assumption | with_reducible apply State_idle_after | with_reducible apply State_sealBlock_after))

theorem blockExpiry_after {s u : State} (h : Keeps s u) : Keeps s (blockExpiry u).1 := by
  unfold blockExpiry
  (repeat' split) <;> (try dsimp only) <;> (repeat' (first | with_reducible assumption | with_reducible apply State_idle_after))

theorem offerBlocks_after {s u : State} (h : Keeps s u) : Keeps s (offerBlocks u).1 := by
  unfold offerBlocks
  (try dsimp only)
  (repeat' split) <;> (try dsimp only) <;> (repeat' (first | with_reducible assumption | with_reducible apply State_idle_after | with_reducible exact Nat.le_refl _ | with_reducible exact fun w => w | with_reducible rfl | with_reducible apply mk_after | with_reducible exact Nat.le_of_eq (List.length_map ..)))

theorem judgeBlocks_after {s u : State} (h : Keeps s u) : Keeps s (judgeBlocks u).1 := by
  unfold judgeBlocks
  (try dsimp only)
  (repeat' split) <;> (try dsimp only) <;> (repeat' (first | with_reducible assumption | with_reducible apply State_idle_after | with_reducible exact Nat.le_refl _ | with_reducible exact fun w => w | with_reducible rfl | with_reducible apply mk_after | with_reducible exact Nat.le_of_eq (List.length_map ..) | with_reducible exact List.length_filter_le .. | with_reducible exact Nat.zero_le _ | split | simp [*]))

theorem reported_after {s u : State} (h : Keeps s u) : Keeps s (reported u).1 := by
  unfold reported
  (try dsimp only)
  (repeat' split) <;> (try dsimp only) <;> (repeat' (first | with_reducible assumption))

theorem journalDemand_after {s u : State} (h : Keeps s u) : Keeps s (journalDemand u).1 := by
  unfold journalDemand
  (try dsimp only)
  (repeat' split) <;> (try dsimp only) <;> (repeat' (first | with_reducible assumption))

theorem State_blockEnded_after {s u : State} (seq : Nat) (m : Nat) (h : Keeps s u) : Keeps s (State.blockEnded u seq m) := by
  unfold State.blockEnded
  (try dsimp only)
  (repeat' split) <;> (try dsimp only) <;> (repeat' (first | with_reducible assumption | with_reducible exact Nat.le_refl _ | with_reducible exact fun w => w | with_reducible rfl | with_reducible apply mk_after | with_reducible exact Nat.le_of_eq (List.length_map ..)))

theorem memberLeft_after {s u : State} (m : Nat) (h : Keeps s u) : Keeps s (memberLeft m u).1 := by
  unfold memberLeft
  (try dsimp only)
  (repeat' split) <;> (try dsimp only) <;> (repeat' (first | with_reducible assumption | with_reducible exact Nat.le_refl _ | with_reducible exact fun w => w | with_reducible rfl | with_reducible apply mk_after | with_reducible exact Nat.le_of_eq (List.length_map ..)))

theorem startCheckpoint_after {s u : State} (h : Keeps s u) : Keeps s ((startCheckpoint u).1) := by
  unfold startCheckpoint
  (try dsimp only)
  (repeat' split) <;> (try dsimp only) <;> (repeat' (first | with_reducible assumption | with_reducible apply State_idle_after | with_reducible apply State_issue_after | with_reducible exact Nat.le_refl _ | with_reducible exact fun w => w | with_reducible rfl | with_reducible apply mk_after))

theorem State_markMember_after {s u : State} (m : Nat) (k : PieceMark) (h : Keeps s u) : Keeps s (State.markMember u m k) := by
  unfold State.markMember
  (try dsimp only)
  (repeat' split) <;> (try dsimp only) <;> (repeat' (first | with_reducible assumption | with_reducible exact Nat.le_refl _ | with_reducible exact fun w => w | with_reducible rfl | with_reducible apply mk_after))

theorem offerPiece_after {s u : State} (m : Nat) (k : Nat) (h : Keeps s u) : Keeps s (offerPiece m k u).1 := by
  unfold offerPiece
  (repeat' split) <;> (try dsimp only) <;> (repeat' (first | with_reducible assumption | with_reducible apply State_idle_after | with_reducible apply State_updBay_after | with_reducible apply State_markMember_after))

theorem advanceCheckpoint_after {s u : State} (h : Keeps s u) : Keeps s ((advanceCheckpoint u).1) := by
  unfold advanceCheckpoint
  (try dsimp only)
  (repeat' split) <;> (try dsimp only) <;> (repeat' (first | with_reducible assumption | with_reducible apply State_idle_after | with_reducible apply State_issue_after | with_reducible exact Nat.le_refl _ | with_reducible exact fun w => w | with_reducible rfl | with_reducible apply mk_after))

theorem State_leaveCheckpoint_after {s u : State} (m : Nat) (h : Keeps s u) : Keeps s (State.leaveCheckpoint u m) := by
  unfold State.leaveCheckpoint
  (try dsimp only)
  (repeat' split) <;> (try dsimp only) <;> (repeat' (first | with_reducible assumption | with_reducible exact Nat.le_refl _ | with_reducible exact fun w => w | with_reducible rfl | with_reducible apply mk_after))

theorem journalEnded_after {s u : State} (use : JournalUse) (done : Bool) (h : Keeps s u) : Keeps s (journalEnded use done u).1 := by
  unfold journalEnded
  (repeat' split) <;> (try dsimp only) <;> (repeat' (first | with_reducible assumption | with_reducible apply State_idle_after | with_reducible apply State_blockEnded_after | with_reducible apply State_markMember_after | with_reducible apply State_leaveCheckpoint_after))

theorem stopJournal_after {s u : State} (h : Keeps s u) : Keeps s (stopJournal u).1 := by
  unfold stopJournal
  (try dsimp only)
  (repeat' split) <;> (try dsimp only) <;> (repeat' (first | with_reducible assumption | with_reducible apply State_withdraw_after | with_reducible exact Nat.le_refl _ | with_reducible exact fun w => w | with_reducible rfl | with_reducible apply mk_after | with_reducible exact Nat.le_of_eq (List.length_map ..)))

end Sys2Proof.Machine
end

