-- ==== Sys2Proof/Laws/KeepsPower.lean ====
section
/-! SUPPORT. Laws/KeepsPower.lean: the operations of Machine/Power.lean keep what `Keeps` names. -/

namespace Sys2Proof.Machine

theorem raiseDemand_after {s u : State} (d : Demand) (h : Keeps s u) : Keeps s (raiseDemand d u).1 := by
  unfold raiseDemand
  (try dsimp only)
  (repeat' split) <;> (try dsimp only) <;> (repeat' (first | with_reducible assumption | with_reducible apply State_idle_after | with_reducible exact Nat.le_refl _ | with_reducible exact fun w => w | with_reducible rfl | with_reducible apply mk_after))

theorem lowerDemand_after {s u : State} (d : Demand) (h : Keeps s u) : Keeps s (lowerDemand d u).1 := by
  unfold lowerDemand
  (try dsimp only)
  (repeat' split) <;> (try dsimp only) <;> (repeat' (first | with_reducible assumption | with_reducible apply State_idle_after | with_reducible exact Nat.le_refl _ | with_reducible exact fun w => w | with_reducible rfl | with_reducible apply mk_after))

theorem State_restartDiskIdle_after {s u : State} (h : Keeps s u) : Keeps s (State.restartDiskIdle u) := by
  unfold State.restartDiskIdle
  (try dsimp only)
  (repeat' split) <;> (try dsimp only) <;> (repeat' (first | with_reducible assumption | with_reducible exact Nat.le_refl _ | with_reducible exact fun w => w | with_reducible rfl | with_reducible apply mk_after))

theorem momentary_after {s u : State} (h : Keeps s u) : Keeps s (momentary u).1 := by
  unfold momentary
  (repeat' split) <;> (try dsimp only) <;> (repeat' (first | with_reducible assumption | with_reducible apply State_idle_after | with_reducible apply State_restartDiskIdle_after))

theorem flush_after {s u : State} (h : Keeps s u) : Keeps s (flush u).1 := by
  unfold flush
  (try dsimp only)
  (repeat' split) <;> (try dsimp only) <;> (repeat' (first | with_reducible assumption))

theorem State_clearQualifier_after {s u : State} (h : Keeps s u) : Keeps s (State.clearQualifier u) := by
  unfold State.clearQualifier
  (try dsimp only)
  (repeat' split) <;> (try dsimp only) <;> (repeat' (first | with_reducible assumption | with_reducible exact Nat.le_refl _ | with_reducible exact fun w => w | with_reducible rfl | with_reducible apply mk_after))

theorem orderSpinUp_after {s u : State} (h : Keeps s u) : Keeps s (orderSpinUp u).1 := by
  unfold orderSpinUp
  (repeat' split) <;> (try dsimp only) <;> (repeat' (first | with_reducible assumption | with_reducible apply State_idle_after | with_reducible apply State_clearQualifier_after))

theorem enterWaking_after {s u : State} (h : Keeps s u) : Keeps s (enterWaking u).1 := by
  unfold enterWaking
  (repeat' split) <;> (try dsimp only) <;> (repeat' (first | with_reducible assumption | with_reducible apply State_idle_after | with_reducible apply State_enterPower_after))

theorem judgeAwake_after {s u : State} (h : Keeps s u) : Keeps s (judgeAwake u).1 := by
  unfold judgeAwake
  (repeat' split) <;> (try dsimp only) <;> (repeat' (first | with_reducible assumption | with_reducible apply State_idle_after))

theorem enterAwake_after {s u : State} (h : Keeps s u) : Keeps s (enterAwake u).1 := by
  unfold enterAwake
  (try dsimp only)
  (repeat' split) <;> (try dsimp only) <;> (repeat' (first | with_reducible assumption | with_reducible apply State_enterPower_after | with_reducible apply State_clearQualifier_after | with_reducible exact Nat.le_refl _ | with_reducible exact fun w => w | with_reducible rfl | with_reducible apply mk_after))

theorem substateReport_after {s u : State} (h : Keeps s u) : Keeps s (substateReport u).1 := by
  unfold substateReport
  (try dsimp only)
  (repeat' split) <;> (try dsimp only) <;> (repeat' (first | with_reducible assumption))

theorem commandEnded_after {s u : State} (done : Bool) (h : Keeps s u) : Keeps s (commandEnded done u).1 := by
  unfold commandEnded
  (try dsimp only)
  (repeat' split) <;> (try dsimp only) <;> (repeat' (first | with_reducible assumption | with_reducible apply State_restartDiskIdle_after))

theorem diskIdleExpiry_after {s u : State} (h : Keeps s u) : Keeps s (diskIdleExpiry u).1 := by
  unfold diskIdleExpiry
  (try dsimp only)
  (repeat' split) <;> (try dsimp only) <;> (repeat' (first | with_reducible assumption | with_reducible apply State_idle_after | with_reducible apply State_enterPower_after | with_reducible exact Nat.le_refl _ | with_reducible exact fun w => w | with_reducible rfl | with_reducible apply mk_after))

theorem peerDemand_after {s u : State} (n : Nat) (h : Keeps s u) : Keeps s (peerDemand n u).1 := by
  unfold peerDemand
  (try dsimp only)
  (repeat' split) <;> (try dsimp only) <;> (repeat' (first | with_reducible assumption | with_reducible apply State_idle_after | with_reducible apply State_updPeer_after | with_reducible exact Nat.le_refl _ | with_reducible exact fun w => w | with_reducible rfl | with_reducible apply mk_after))

theorem State_qualifierExpiry_after {s u : State} (h : Keeps s u) : Keeps s (State.qualifierExpiry u) := by
  unfold State.qualifierExpiry
  (repeat' split) <;> (try dsimp only) <;> (repeat' (first | with_reducible assumption | with_reducible apply State_clearQualifier_after))

theorem wake_after {s u : State} (m : Msg) (h : Keeps s u) : Keeps s (wake m u).1 := by
  unfold wake
  (repeat' split) <;> (try dsimp only) <;> (repeat' (first | with_reducible assumption | with_reducible apply State_restartDiskIdle_after))

theorem answerWake_after {s u : State} (dest : Addr) (seq : Nat) (h : Keeps s u) : Keeps s (answerWake dest seq u).1 := by
  unfold answerWake
  (try dsimp only)
  (repeat' split) <;> (try dsimp only) <;> (repeat' (first | with_reducible assumption | with_reducible apply State_send_after))

theorem deepIdleExpiry_after {s u : State} (h : Keeps s u) : Keeps s (deepIdleExpiry u).1 := by
  unfold deepIdleExpiry
  (try dsimp only)
  (repeat' split) <;> (try dsimp only) <;> (repeat' (first | with_reducible assumption | with_reducible apply State_idle_after | with_reducible exact Nat.le_refl _ | with_reducible exact fun w => w | with_reducible rfl | with_reducible apply mk_after))

theorem deepCheck_after {s u : State} (h : Keeps s u) : Keeps s (deepCheck u).1 := by
  unfold deepCheck
  (repeat' split) <;> (try dsimp only) <;> (repeat' (first | with_reducible assumption | with_reducible apply State_idle_after))

theorem enterDeep_after {s u : State} (h : Keeps s u) : Keeps s (enterDeep u).1 := by
  unfold enterDeep
  (try dsimp only)
  (repeat' split) <;> (try dsimp only) <;> (repeat' (first | with_reducible assumption | with_reducible apply State_enterPower_after | with_reducible apply State_closeWindow_after | with_reducible apply State_giveUpReserve_after | with_reducible apply State_clearQualifier_after | with_reducible exact Nat.le_refl _ | with_reducible exact fun w => w | with_reducible rfl | with_reducible apply mk_after))

theorem resumeTimers_after {s u : State} (h : Keeps s u) : Keeps s (resumeTimers u).1 := by
  unfold resumeTimers
  (try dsimp only)
  (repeat' split) <;> (try dsimp only) <;> (repeat' (first | with_reducible assumption | with_reducible exact Nat.le_refl _ | with_reducible exact fun w => w | with_reducible rfl | with_reducible apply mk_after))

theorem exitDeep_after {s u : State} (cause : Cause) (h : Keeps s u) : Keeps s ((exitDeep cause u).1) := by
  unfold exitDeep
  (try dsimp only)
  (repeat' split) <;> (try dsimp only) <;> (repeat' (first | with_reducible assumption | with_reducible apply State_idle_after | with_reducible apply State_restartDeepIdle_after | with_reducible apply State_grantTurn_after | with_reducible apply State_enterPower_after))

theorem State_setLine_after {s u : State} (b : Button) (l : Line) (h : Keeps s u) : Keeps s (State.setLine u b l) := by
  unfold State.setLine
  (try dsimp only)
  (repeat' split) <;> (try dsimp only) <;> (repeat' (first | with_reducible assumption | with_reducible exact Nat.le_refl _ | with_reducible exact fun w => w | with_reducible rfl | with_reducible apply mk_after))

theorem State_lineChange_after {s u : State} (b : Button) (pressed : Bool) (h : Keeps s u) : Keeps s (State.lineChange u b pressed) := by
  unfold State.lineChange
  (try dsimp only)
  (repeat' split) <;> (try dsimp only) <;> (repeat' (first | with_reducible assumption | with_reducible apply State_setLine_after))

theorem pressPower_after {s u : State} (h : Keeps s u) : Keeps s (pressPower u).1 := by
  unfold pressPower
  (repeat' split) <;> (try dsimp only) <;> (repeat' (first | with_reducible assumption | with_reducible apply State_idle_after | with_reducible apply State_restartDeepIdle_after | with_reducible apply State_restartDiskIdle_after))

theorem debounceExpiry_after {s u : State} (b : Button) (h : Keeps s u) : Keeps s (debounceExpiry b u).1 := by
  unfold debounceExpiry
  (try dsimp only)
  (repeat' split) <;> (try dsimp only) <;> (repeat' (first | with_reducible assumption | with_reducible apply State_idle_after | with_reducible apply State_pressPairing_after | with_reducible apply State_setLine_after | with_reducible apply pressPower_after))

end Sys2Proof.Machine
end

