-- ==== Sys2Proof/Laws/KeepsObjects.lean ====
section
/-! SUPPORT. Laws/KeepsObjects.lean: the operations of Machine/Objects.lean keep what `Keeps` names. -/

namespace Sys2Proof.Machine

theorem objectBegin_after {s u : State} (m : Msg) (h : Keeps s u) : Keeps s (objectBegin m u).1 := by
  unfold objectBegin
  (try dsimp only)
  (repeat' split) <;> (try dsimp only) <;> (repeat' (first | with_reducible assumption | with_reducible apply State_updRun_after | with_reducible apply State_reply_after | with_reducible apply State_refuse_after | with_reducible exact Nat.le_refl _ | with_reducible exact fun w => w | with_reducible rfl | with_reducible apply mk_after))

theorem State_takeName_after {s u : State} (id : Nat) (name : Name) (h : Keeps s u) : Keeps s (State.takeName u id name) := by
  unfold State.takeName
  (repeat' split) <;> (try dsimp only) <;> (repeat' (first | with_reducible assumption | with_reducible apply State_updEntry_after | with_reducible apply State_updObj_after))

theorem State_takeNames_after {s : State} (id : Nat) : ∀ (ns : List Name) (k : Nat) {u : State}, Keeps s u →
    Keeps s (u.takeNames id k ns).1
  | [], _, _, h => h
  | n :: ns, k, u, h => by
    unfold State.takeNames
    split
    · exact h
    · split
      · exact h
      · exact State_takeNames_after id ns (k + 1) (State_takeName_after _ _ h)

theorem objectAppend_after {s u : State} (m : Msg) (h : Keeps s u) : Keeps s (objectAppend m u).1 := by
  unfold objectAppend
  dsimp only
  split
  · exact State_refuse_after _ _ h
  · split
    · exact State_refuse_after _ _ h
    · split
      · exact State_refuse_after _ _ h
      · exact State_refuse_after _ _ h
      · exact State_reply_after _ _ _ (State_takeNames_after _ _ _ h)

theorem State_complete_after {s u : State} (o : Obj) (h : Keeps s u) : Keeps s (State.complete u o) := by
  unfold State.complete
  (try dsimp only)
  (repeat' split) <;> (try dsimp only) <;> (repeat' (first | with_reducible assumption | with_reducible apply State_updObj_after | with_reducible apply State_updRun_after))

theorem State_makePending_after {s u : State} (o : Obj) (h : Keeps s u) : Keeps s (State.makePending u o) := by
  unfold State.makePending
  (try dsimp only)
  (repeat' split) <;> (try dsimp only) <;> (repeat' (first | with_reducible assumption | with_reducible apply State_updObj_after | with_reducible apply State_updRun_after))

theorem State_leaveRun_after {s u : State} (id : Nat) (h : Keeps s u) : Keeps s (State.leaveRun u id) := by
  unfold State.leaveRun
  (try dsimp only)
  (repeat' split) <;> (try dsimp only) <;> (repeat' (first | with_reducible assumption | with_reducible apply State_updObj_after))

theorem objectFinish_after {s u : State} (m : Msg) (h : Keeps s u) : Keeps s ((objectFinish m u).1) := by
  unfold objectFinish
  (try dsimp only)
  (repeat' split) <;> (try dsimp only) <;> (repeat' (first | with_reducible assumption | with_reducible apply State_reply_after | with_reducible apply State_refuse_after | with_reducible apply State_complete_after | with_reducible apply State_makePending_after | with_reducible apply State_leaveRun_after))

theorem objectRecords_after {s u : State} (id : Nat) (run : Option Nat) (h : Keeps s u) : Keeps s (objectRecords id run u).1 := by
  unfold objectRecords
  (repeat' split) <;> (try dsimp only) <;> (repeat' (first | with_reducible assumption | with_reducible apply State_idle_after))

theorem objectRecorded_after {s u : State} (id : Nat) (run : Option Nat) (h : Keeps s u) : Keeps s (objectRecorded id run u).1 := by
  unfold objectRecorded
  (try dsimp only)
  (repeat' split) <;> (try dsimp only) <;> (repeat' (first | with_reducible assumption | with_reducible apply State_idle_after | with_reducible apply State_updObj_after | with_reducible apply State_updRun_after))

theorem discardObject_after {s u : State} (id : Nat) (h : Keeps s u) : Keeps s (discardObject id u).1 := by
  unfold discardObject
  (repeat' split) <;> (try dsimp only) <;> (repeat' (first | with_reducible assumption | with_reducible apply State_idle_after))

theorem dropObject_after {s u : State} (id : Nat) (h : Keeps s u) : Keeps s (dropObject id u).1 := by
  unfold dropObject
  (try dsimp only)
  (repeat' split) <;> (try dsimp only) <;> (repeat' (first | with_reducible assumption | with_reducible exact Nat.le_refl _ | with_reducible exact fun w => w | with_reducible rfl | with_reducible apply mk_after))

theorem removeObject_after {s u : State} (id : Nat) (h : Keeps s u) : Keeps s (removeObject id u).1 := by
  unfold removeObject
  (repeat' split) <;> (try dsimp only) <;> (repeat' (first | with_reducible assumption | with_reducible apply State_idle_after))

theorem State_unpend_after {s u : State} (o : Obj) (h : Keeps s u) : Keeps s (State.unpend u o) := by
  unfold State.unpend
  (try dsimp only)
  (repeat' split) <;> (try dsimp only) <;> (repeat' (first | with_reducible assumption | with_reducible apply State_updObj_after | with_reducible apply State_updRun_after))

theorem objectDelete_after {s u : State} (m : Msg) (h : Keeps s u) : Keeps s (objectDelete m u).1 := by
  unfold objectDelete
  (try dsimp only)
  (repeat' split) <;> (try dsimp only) <;> (repeat' (first | with_reducible assumption | with_reducible apply State_updObj_after | with_reducible apply State_send_after | with_reducible apply State_refuse_after | with_reducible apply State_append_after | with_reducible apply State_unpend_after))

theorem releasePlay_after {s u : State} (id : Nat) (h : Keeps s u) : Keeps s (releasePlay id u).1 := by
  unfold releasePlay
  (try dsimp only)
  (repeat' split) <;> (try dsimp only) <;> (repeat' (first | with_reducible assumption | with_reducible apply State_updObj_after))

theorem albumFall_after {s u : State} (id : Nat) (h : Keeps s u) : Keeps s (albumFall id u).1 := by
  unfold albumFall
  (try dsimp only)
  (repeat' split) <;> (try dsimp only) <;> (repeat' (first | with_reducible assumption | with_reducible apply State_updObj_after))

theorem State_claim_after {s u : State} (id : Nat) (h : Keeps s u) : Keeps s (State.claim u id) := by
  unfold State.claim
  (repeat' split) <;> (try dsimp only) <;> (repeat' (first | with_reducible assumption | with_reducible apply State_updObj_after))

theorem objectInfo_after {s u : State} (m : Msg) (h : Keeps s u) : Keeps s (objectInfo m u).1 := by
  unfold objectInfo
  (try dsimp only)
  (repeat' split) <;> (try dsimp only) <;> (repeat' (first | with_reducible assumption | with_reducible apply State_reply_after | with_reducible apply State_refuse_after))

theorem albumCreate_after {s u : State} (m : Msg) (h : Keeps s u) : Keeps s (albumCreate m u).1 := by
  unfold albumCreate
  (try dsimp only)
  (repeat' split) <;> (try dsimp only) <;> (repeat' (first | with_reducible assumption | with_reducible apply State_setAlbum_after | with_reducible apply State_send_after | with_reducible apply State_refuse_after))

theorem albumAdd_after {s u : State} (m : Msg) (h : Keeps s u) : Keeps s (albumAdd m u).1 := by
  unfold albumAdd
  (try dsimp only)
  (repeat' split) <;> (try dsimp only) <;> (repeat' (first | with_reducible assumption | with_reducible apply State_updObj_after | with_reducible apply State_setAlbum_after | with_reducible apply State_send_after | with_reducible apply State_refuse_after))

theorem albumRemove_after {s u : State} (m : Msg) (h : Keeps s u) : Keeps s (albumRemove m u).1 := by
  unfold albumRemove
  (try dsimp only)
  (repeat' split) <;> (try dsimp only) <;> (repeat' (first | with_reducible assumption | with_reducible apply State_setAlbum_after | with_reducible apply State_send_after | with_reducible apply State_refuse_after))

theorem albumDrop_after {s u : State} (m : Msg) (h : Keeps s u) : Keeps s (albumDrop m u).1 := by
  unfold albumDrop
  (try dsimp only)
  (repeat' split) <;> (try dsimp only) <;> (repeat' (first | with_reducible assumption | with_reducible apply State_send_after | with_reducible apply State_refuse_after))

theorem takeEntry_after {s u : State} (a : Nat) (h : Keeps s u) : Keeps s (takeEntry a u).1 := by
  unfold takeEntry
  (repeat' split) <;> (try dsimp only) <;> (repeat' (first | with_reducible assumption | with_reducible apply State_idle_after | with_reducible apply State_setAlbum_after))

theorem freeAlbum_after {s u : State} (a : Nat) (h : Keeps s u) : Keeps s (freeAlbum a u).1 := by
  unfold freeAlbum
  (try dsimp only)
  (repeat' split) <;> (try dsimp only) <;> (repeat' (first | with_reducible assumption | with_reducible apply State_setAlbum_after))

theorem albumList_after {s u : State} (m : Msg) (h : Keeps s u) : Keeps s (albumList m u).1 := by
  unfold albumList
  (try dsimp only)
  (repeat' split) <;> (try dsimp only) <;> (repeat' (first | with_reducible assumption | with_reducible apply State_reply_after | with_reducible apply State_refuse_after))

end Sys2Proof.Machine
end

