-- ==== Sys2Proof/Laws/KeepsIngest.lean ====
section
/-! SUPPORT. Laws/KeepsIngest.lean: the operations of Machine/Ingest.lean keep what `Keeps` names. -/

namespace Sys2Proof.Machine

theorem endRun_after {s u : State} (run : Nat) (h : Keeps s u) : Keeps s (endRun run u).1 := by
  unfold endRun
  (try dsimp only)
  (repeat' split) <;> (try dsimp only) <;> (repeat' (first | with_reducible assumption | with_reducible apply State_idle_after | with_reducible exact Nat.le_refl _ | with_reducible exact fun w => w | with_reducible rfl | with_reducible apply mk_after | with_reducible exact Nat.le_of_eq (List.length_map ..) | with_reducible exact List.length_filter_le ..))

theorem runAbort_after {s u : State} (m : Msg) (h : Keeps s u) : Keeps s (runAbort m u).1 := by
  unfold runAbort
  (try dsimp only)
  (repeat' split) <;> (try dsimp only) <;> (repeat' (first | with_reducible assumption | with_reducible apply State_send_after | with_reducible apply State_refuse_after))

theorem runIdleTimeout_after {s u : State} (id : Nat) (h : Keeps s u) : Keeps s (runIdleTimeout id u).1 := by
  unfold runIdleTimeout
  (repeat' split) <;> (try dsimp only) <;> (repeat' (first | with_reducible assumption | with_reducible apply State_idle_after))

theorem runClose_after {s u : State} (m : Msg) (h : Keeps s u) : Keeps s (runClose m u).1 := by
  unfold runClose
  (try dsimp only)
  (repeat' split) <;> (try dsimp only) <;> (repeat' (first | with_reducible assumption | with_reducible apply State_updRun_after | with_reducible apply State_reply_after | with_reducible apply State_refuse_after))

theorem closeZero_after {s u : State} (run : Nat) (h : Keeps s u) : Keeps s (closeZero run u).1 := by
  unfold closeZero
  (repeat' split) <;> (try dsimp only) <;> (repeat' (first | with_reducible assumption | with_reducible apply State_idle_after | with_reducible apply State_updRun_after))

theorem closeAfterReclaim_after {s u : State} (run : Nat) (h : Keeps s u) : Keeps s (closeAfterReclaim run u).1 := by
  unfold closeAfterReclaim
  (repeat' split) <;> (try dsimp only) <;> (repeat' (first | with_reducible assumption | with_reducible apply State_idle_after))

theorem judgeClose_after {s u : State} (run : Nat) (h : Keeps s u) : Keeps s (judgeClose run u).1 := by
  unfold judgeClose
  (repeat' split) <;> (try dsimp only) <;> (repeat' (first | with_reducible assumption | with_reducible apply State_idle_after))

theorem completeRun_after {s u : State} (run : Nat) (ok : Bool) (h : Keeps s u) : Keeps s (completeRun run ok u).1 := by
  unfold completeRun
  (try dsimp only)
  (repeat' split) <;> (try dsimp only) <;> (repeat' (first | with_reducible assumption | with_reducible apply State_idle_after | with_reducible apply State_updPeer_after | with_reducible apply State_send_after | with_reducible exact Nat.le_refl _ | with_reducible exact fun w => w | with_reducible rfl | (with_reducible apply foldl_after; intro _ _ _) | with_reducible apply mk_after | with_reducible exact Nat.le_of_eq (List.length_map ..) | with_reducible exact List.length_filter_le ..))

theorem State_sendItem_after {s u : State} (run : Nat) (owner : Nat) (i : OfferItem) (k : Fin 32) (h : Keeps s u) : Keeps s (State.sendItem u run owner i k).1 := by
  unfold State.sendItem
  (try dsimp only)
  (repeat' split) <;> (try dsimp only) <;> (repeat' (first | with_reducible assumption | with_reducible apply State_updRun_after | with_reducible apply State_setArrival_after | with_reducible apply State_setPages_after | with_reducible apply State_createEntry_after | with_reducible apply State_reingest_after))

theorem State_offerAll_after {s : State} (run owner : Nat) : ∀ (is : List OfferItem) {u : State}, Keeps s u →
    Keeps s (u.offerAll run owner is).1
  | [], _, h => h
  | i :: is, u, h => by
    unfold State.offerAll
    dsimp only
    split
    · exact State_offerAll_after run owner is h
    · exact State_offerAll_after run owner is (State_sendItem_after _ _ _ _ h)

theorem offer_after {s u : State} (m : Msg) (h : Keeps s u) : Keeps s (offer m u).1 := by
  unfold offer
  dsimp only
  split
  · exact State_refuse_after _ _ h
  · split
    · exact State_refuse_after _ _ h
    · split
      · exact State_refuse_after _ _ h
      · exact State_reply_after _ _ _ (State_offerAll_after _ _ _ h)

theorem arrivalTimeout_after {s u : State} (k : Fin 32) (h : Keeps s u) : Keeps s (arrivalTimeout k u).1 := by
  unfold arrivalTimeout
  (repeat' split) <;> (try dsimp only) <;> (repeat' (first | with_reducible assumption | with_reducible apply State_idle_after))

theorem abandonArrival_after {s u : State} (k : Fin 32) (reason : LostReason) (h : Keeps s u) : Keeps s (abandonArrival k reason u).1 := by
  unfold abandonArrival
  (repeat' split) <;> (try dsimp only) <;> (repeat' (first | with_reducible assumption | with_reducible apply State_idle_after | with_reducible apply State_send_after | with_reducible exact Nat.le_refl _ | with_reducible exact fun w => w | with_reducible rfl | (with_reducible apply foldl_after; intro _ _ _)))

theorem freeArrival_after {s u : State} (k : Fin 32) (h : Keeps s u) : Keeps s (freeArrival k u).1 := by
  unfold freeArrival
  (try dsimp only)
  (repeat' split) <;> (try dsimp only) <;> (repeat' (first | with_reducible assumption | with_reducible apply State_idle_after | with_reducible apply State_updRun_after | with_reducible apply State_setArrival_after))

theorem State_refillCheck_after {s u : State} (v : Bool) (hq : s.Inv → u.ingest.queue.length < Config.checkPlaces)
    (h : Keeps s u) : Keeps s (State.refillCheck u v) := by
  unfold State.refillCheck
  (repeat' split) <;> first
    | exact h
    | (refine ⟨h.pending, h.now, h.image, h.straps, fun i => ?_⟩
       have j := h.inv i
       exact ⟨j.staging, j.cache, j.places, j.fifo, j.control, j.asks, j.runs,
         by simpa using hq i, j.blocks⟩)

theorem State_laneTake_after {s u : State} (l : Fin 2) (v : Bool) (h : Keeps s u) : Keeps s (State.laneTake u l v) := by
  unfold State.laneTake
  split
  · exact h
  split
  · rename_i x y i is _ hq
    refine State_issue_after _ _ (State_refillCheck_after _ ?_ ?_)
    · intro k
      have j := (h.inv k).checks
      rw [hq] at j
      exact j
    · apply mk_after h <;> first
        | exact Nat.le_refl _
        | exact fun w => w
        | rfl
        | (rw [hq]; exact Nat.le_succ _)
  · exact h

theorem State_laneIdle_after {s u : State} (l : Fin 2) (h : Keeps s u) : Keeps s (State.laneIdle u l) := by
  unfold State.laneIdle
  (try dsimp only)
  (repeat' split) <;> (try dsimp only) <;> (repeat' (first | with_reducible assumption | with_reducible exact Nat.le_refl _ | with_reducible exact fun w => w | with_reducible rfl | with_reducible apply mk_after))

theorem checkResultIngest_after {s u : State} (l : Fin 2) (h : Keeps s u) : Keeps s (checkResultIngest l u).1 := by
  unfold checkResultIngest
  (try dsimp only)
  (repeat' split) <;> (try dsimp only) <;> (repeat' (first | with_reducible assumption | with_reducible apply State_idle_after | with_reducible apply State_laneIdle_after))

end Sys2Proof.Machine
end

