-- ==== Sys2Proof/Laws/KeepsStreams.lean ====
section
/-! SUPPORT. Laws/KeepsStreams.lean: the operations of Machine/Streams.lean keep what `Keeps` names. -/

namespace Sys2Proof.Machine

theorem fill_after {s u : State} (i : SlotNo) (h : Keeps s u) : Keeps s (fill i u).1 := by
  unfold fill
  (try dsimp only)
  (repeat' split) <;> (try dsimp only) <;> (repeat' (first | with_reducible assumption | with_reducible apply State_updSlot_after))

theorem lookup_after {s u : State} (i : SlotNo) (place : Nat) (h : Keeps s u) : Keeps s (lookup i place u).1 := by
  unfold lookup
  (repeat' split) <;> (try dsimp only) <;> (repeat' (first | with_reducible assumption | with_reducible apply State_idle_after | with_reducible apply State_placeHold_after | with_reducible apply State_updPos_after))

theorem entryChanged_after {s u : State} (name : Name) (h : Keeps s u) : Keeps s (entryChanged name u).1 := by
  unfold entryChanged
  (try dsimp only)
  (repeat' split) <;> (try dsimp only) <;> (repeat' (first | with_reducible assumption))

theorem State_withdrawFills_after {s u : State} (i : SlotNo) (ws : List WinPos) (h : Keeps s u) : Keeps s (State.withdrawFills u i ws) := by
  unfold State.withdrawFills
  (try dsimp only)
  (repeat' split) <;> (try dsimp only) <;> (repeat' (first | with_reducible assumption | with_reducible exact Nat.le_refl _ | with_reducible exact fun w => w | with_reducible rfl | with_reducible apply mk_after))

theorem State_freePositions_after {s u : State} (i : SlotNo) (p : WinPos → Bool) (h : Keeps s u) : Keeps s (State.freePositions u i p).1 := by
  unfold State.freePositions
  (try dsimp only)
  (repeat' split) <;> (try dsimp only) <;> (repeat' (first | with_reducible assumption | with_reducible apply State_updSlot_after | with_reducible apply State_withdrawFills_after))

theorem State_placeSegment_after {s u : State} (i : SlotNo) (x : Slot) (c : Current) (lo : Nat) (n : Nat) (h : Keeps s u) : Keeps s (State.placeSegment u i x c lo n) := by
  unfold State.placeSegment
  (try dsimp only)
  (repeat' split) <;> (try dsimp only) <;> (repeat' (first | with_reducible assumption | with_reducible apply State_updSlot_after | with_reducible apply State_send_after | with_reducible apply State_issue_after | with_reducible exact Nat.le_refl _ | with_reducible exact fun w => w | with_reducible rfl | (with_reducible apply foldl_after; intro _ _ _)))

theorem State_clampCredit_after {s u : State} (i : SlotNo) (h : Keeps s u) : Keeps s (State.clampCredit u i) := by
  unfold State.clampCredit
  (repeat' split) <;> (try dsimp only) <;> (repeat' (first | with_reducible assumption | with_reducible apply State_updSlot_after))

theorem State_stall_after {s u : State} (i : SlotNo) (h : Keeps s u) : Keeps s (State.stall u i) := by
  unfold State.stall
  (repeat' split) <;> (try dsimp only) <;> (repeat' (first | with_reducible assumption | with_reducible apply State_updSlot_after))

theorem emit_after {s u : State} (i : SlotNo) (h : Keeps s u) : Keeps s (emit i u).1 := by
  unfold emit
  (try dsimp only)
  (repeat' split) <;> (try dsimp only) <;> (repeat' (first | with_reducible assumption | with_reducible apply State_idle_after | with_reducible apply State_freePositions_after | with_reducible apply State_placeSegment_after | with_reducible apply State_clampCredit_after | with_reducible apply State_stall_after))

theorem State_pace_after {s u : State} (i : SlotNo) (h : Keeps s u) : Keeps s (State.pace u i).1 := by
  unfold State.pace
  (try dsimp only)
  (repeat' split) <;> (try dsimp only) <;> (repeat' (first | with_reducible assumption | with_reducible apply State_idle_after | with_reducible apply State_updSlot_after))

theorem pacingInterval_after {s u : State} (i : SlotNo) (h : Keeps s u) : Keeps s (pacingInterval i u).1 := by
  unfold pacingInterval
  (repeat' split) <;> (try dsimp only) <;> (repeat' (first | with_reducible assumption | with_reducible apply State_idle_after | with_reducible apply State_pace_after))

theorem stalledInterval_after {s u : State} (i : SlotNo) (h : Keeps s u) : Keeps s (stalledInterval i u).1 := by
  unfold stalledInterval
  (try dsimp only)
  (repeat' split) <;> (try dsimp only) <;> (repeat' (first | with_reducible assumption | with_reducible apply State_idle_after | with_reducible apply State_updSlot_after | with_reducible apply State_pace_after))

theorem stallTimeout_after {s u : State} (i : SlotNo) (h : Keeps s u) : Keeps s (stallTimeout i u).1 := by
  unfold stallTimeout
  (try dsimp only)
  (repeat' split) <;> (try dsimp only) <;> (repeat' (first | with_reducible assumption | with_reducible apply State_idle_after))

theorem endTransfer_after {s u : State} (i : SlotNo) (reason : EndReason) (h : Keeps s u) : Keeps s (endTransfer i reason u).1 := by
  unfold endTransfer
  (try dsimp only)
  (repeat' split) <;> (try dsimp only) <;> (repeat' (first | with_reducible assumption | with_reducible apply State_idle_after | with_reducible apply State_updSlot_after | with_reducible apply State_freePositions_after))

theorem endTail_after {s u : State} (i : SlotNo) (reason : EndReason) (h : Keeps s u) : Keeps s (endTail i reason u).1 := by
  unfold endTail
  (try dsimp only)
  (repeat' split) <;> (try dsimp only) <;> (repeat' (first | with_reducible assumption | with_reducible apply State_idle_after | with_reducible apply State_updSlot_after | with_reducible apply State_send_after | with_reducible exact Nat.le_refl _ | with_reducible exact fun w => w | with_reducible rfl | (with_reducible apply foldl_after; intro _ _ _)))

theorem resumeExpiry_after {s u : State} (i : SlotNo) (h : Keeps s u) : Keeps s (resumeExpiry i u).1 := by
  unfold resumeExpiry
  (repeat' split) <;> (try dsimp only) <;> (repeat' (first | with_reducible assumption | with_reducible apply State_idle_after | with_reducible apply State_updSlot_after))

theorem primedTimeout_after {s u : State} (i : SlotNo) (h : Keeps s u) : Keeps s (primedTimeout i u).1 := by
  unfold primedTimeout
  (try dsimp only)
  (repeat' split) <;> (try dsimp only) <;> (repeat' (first | with_reducible assumption | with_reducible apply State_idle_after))

theorem State_placePlay_after {s u : State} (m : Msg) (i : SlotNo) (r : Transfer) (any : Bool) (h : Keeps s u) : Keeps s (State.placePlay u m i r any).1 := by
  unfold State.placePlay
  (try dsimp only)
  (repeat' split) <;> (try dsimp only) <;> (repeat' (first | with_reducible assumption | with_reducible apply State_idle_after | with_reducible apply State_updSlot_after))

theorem play_after {s u : State} (m : Msg) (h : Keeps s u) : Keeps s (play m u).1 := by
  unfold play
  (try dsimp only)
  (repeat' split) <;> (try dsimp only) <;> (repeat' (first | with_reducible assumption | with_reducible apply State_refuse_after | with_reducible apply State_claim_after | with_reducible apply State_placePlay_after))

theorem resume_after {s u : State} (m : Msg) (h : Keeps s u) : Keeps s (resume m u).1 := by
  unfold resume
  (try dsimp only)
  (repeat' split) <;> (try dsimp only) <;> (repeat' (first | with_reducible assumption | with_reducible apply State_idle_after | with_reducible apply State_updSlot_after | with_reducible apply State_send_after | with_reducible apply State_refuse_after))

theorem rateAction_after {s u : State} (act : Play → Play) (m : Msg) (h : Keeps s u) : Keeps s (rateAction act m u).1 := by
  unfold rateAction
  (try dsimp only)
  (repeat' split) <;> (try dsimp only) <;> (repeat' (first | with_reducible assumption | with_reducible apply State_updSlot_after | with_reducible apply State_reply_after | with_reducible apply State_refuse_after))

theorem retarget_after {s u : State} (m : Msg) (h : Keeps s u) : Keeps s (retarget m u).1 := by
  unfold retarget
  (try dsimp only)
  (repeat' split) <;> (try dsimp only) <;> (repeat' (first | with_reducible assumption | with_reducible apply State_updSlot_after | with_reducible apply State_send_after | with_reducible apply State_refuse_after | with_reducible apply State_freePositions_after))

theorem dropNext_after {s u : State} (m : Msg) (h : Keeps s u) : Keeps s (dropNext m u).1 := by
  unfold dropNext
  (repeat' split) <;> (try dsimp only) <;> (repeat' (first | with_reducible assumption | with_reducible apply State_updSlot_after | with_reducible apply State_send_after | with_reducible apply State_refuse_after))

theorem stop_after {s u : State} (m : Msg) (h : Keeps s u) : Keeps s (stop m u).1 := by
  unfold stop
  (repeat' split) <;> (try dsimp only) <;> (repeat' (first | with_reducible assumption | with_reducible apply State_idle_after | with_reducible apply State_send_after | with_reducible apply State_refuse_after))

theorem State_taperDrop_after {s u : State} (i : SlotNo) (h : Keeps s u) : Keeps s (State.taperDrop u i) := by
  unfold State.taperDrop
  (repeat' split) <;> (try dsimp only) <;> (repeat' (first | with_reducible assumption | with_reducible apply State_updSlot_after))

theorem taperStop_after {s u : State} (m : Msg) (h : Keeps s u) : Keeps s (taperStop m u).1 := by
  unfold taperStop
  (try dsimp only)
  (repeat' split) <;> (try dsimp only) <;> (repeat' (first | with_reducible assumption | with_reducible apply State_updSlot_after | with_reducible apply State_send_after | with_reducible apply State_refuse_after | with_reducible apply State_taperDrop_after))

theorem allStop_after {s u : State} (m : Msg) (h : Keeps s u) : Keeps s (allStop m u).1 := by
  unfold allStop
  (try dsimp only)
  (repeat' split) <;> (try dsimp only) <;> (repeat' (first | with_reducible assumption))

theorem viewReport_after {s u : State} (m : Msg) (h : Keeps s u) : Keeps s (viewReport m u).1 := by
  unfold viewReport
  (repeat' split) <;> (try dsimp only) <;> (repeat' (first | with_reducible assumption | with_reducible apply State_idle_after | with_reducible apply State_updSlot_after))

theorem State_goGroup_after {s u : State} (g : Nat) (h : Keeps s u) : Keeps s (State.goGroup u g) := by
  unfold State.goGroup
  (repeat' split) <;> (try dsimp only) <;> (repeat' (first | with_reducible assumption | with_reducible exact Nat.le_refl _ | with_reducible exact fun w => w | with_reducible rfl | with_reducible apply mk_after))

theorem groupGo_after {s u : State} (m : Msg) (h : Keeps s u) : Keeps s (groupGo m u).1 := by
  unfold groupGo
  (repeat' split) <;> (try dsimp only) <;> (repeat' (first | with_reducible assumption | with_reducible apply State_idle_after | with_reducible apply State_goGroup_after))

theorem groupHalt_after {s u : State} (m : Msg) (h : Keeps s u) : Keeps s (groupHalt m u).1 := by
  unfold groupHalt
  (repeat' split) <;> (try dsimp only) <;> (repeat' (first | with_reducible assumption | with_reducible apply State_idle_after))

theorem groupCall_after {s u : State} (m : Msg) (h : Keeps s u) : Keeps s (groupCall m u).1 := by
  unfold groupCall
  (try dsimp only)
  (repeat' split) <;> (try dsimp only) <;> (repeat' (first | with_reducible assumption | with_reducible apply State_send_after | with_reducible apply State_reply_after | with_reducible apply State_refuse_after | with_reducible apply State_goGroup_after))

theorem haltCall_after {s u : State} (m : Msg) (h : Keeps s u) : Keeps s (haltCall m u).1 := by
  unfold haltCall
  (repeat' split) <;> (try dsimp only) <;> (repeat' (first | with_reducible assumption | with_reducible apply State_send_after | with_reducible apply State_refuse_after))

end Sys2Proof.Machine
end

