-- ==== Sys2Proof/Laws/KeepsStartup.lean ====
section
/-! SUPPORT. Laws/KeepsStartup.lean: the operations of Machine/Startup.lean keep what `Keeps` names. -/

namespace Sys2Proof.Machine

theorem settle_after {s u : State} (h : Keeps s u) : Keeps s (settle u).1 := by
  unfold settle
  (try dsimp only)
  (repeat' split) <;> (try dsimp only) <;> (repeat' (first | with_reducible assumption | with_reducible apply State_enterPower_after | with_reducible exact Nat.le_refl _ | with_reducible exact fun w => w | with_reducible rfl | with_reducible apply mk_after))

theorem startProbes_after {s u : State} (h : Keeps s u) : Keeps s (startProbes u).1 := by
  unfold startProbes
  (try dsimp only)
  (repeat' split) <;> (try dsimp only) <;> (repeat' (first | with_reducible assumption | with_reducible exact Nat.le_refl _ | with_reducible exact fun w => w | with_reducible rfl | with_reducible apply mk_after))

theorem judgeProbes_after {s u : State} (h : Keeps s u) : Keeps s (judgeProbes u).1 := by
  unfold judgeProbes
  (repeat' split) <;> (try dsimp only) <;> (repeat' (first | with_reducible assumption | with_reducible apply State_idle_after))

theorem State_placeBay_after {s u : State} (b : BayNo) (h : Keeps s u) : Keeps s (State.placeBay u b) := by
  unfold State.placeBay
  (repeat' split) <;> (try dsimp only) <;> (repeat' (first | with_reducible assumption | with_reducible apply State_updBay_after | with_reducible apply State_launch_after))

theorem State_placeBays_after {s u : State} (h : Keeps s u) : Keeps s (State.placeBays u) := by
  unfold State.placeBays
  (repeat' split) <;> (try dsimp only) <;> (repeat' (first | with_reducible assumption | with_reducible apply State_placeBay_after | with_reducible exact Nat.le_refl _ | with_reducible exact fun w => w | with_reducible rfl | (with_reducible apply foldl_after; intro _ _ _)))

theorem assignMembers_after {s u : State} (h : Keeps s u) : Keeps s (assignMembers u).1 := by
  unfold assignMembers
  (try dsimp only)
  (repeat' split) <;> (try dsimp only) <;> (repeat' (first | with_reducible assumption | with_reducible apply State_placeBays_after | with_reducible exact Nat.le_refl _ | with_reducible exact fun w => w | with_reducible rfl | with_reducible apply mk_after))

theorem formStore_after {s u : State} (h : Keeps s u) : Keeps s ((formStore u).1) := by
  unfold formStore
  (try dsimp only)
  (repeat' split) <;> (try dsimp only) <;> (repeat' (first | with_reducible assumption | with_reducible apply State_issueAll_after | with_reducible apply State_placeBays_after | with_reducible exact Nat.le_refl _ | with_reducible exact fun w => w | with_reducible rfl | with_reducible apply mk_after))

theorem judgeFormation_after {s u : State} (h : Keeps s u) : Keeps s (judgeFormation u).1 := by
  unfold judgeFormation
  (repeat' split) <;> (try dsimp only) <;> (repeat' (first | with_reducible assumption | with_reducible apply State_idle_after))

theorem loadMember_after {s u : State} (m : Nat) (h : Keeps s u) : Keeps s (loadMember m u).1 := by
  unfold loadMember
  (try dsimp only)
  (repeat' split) <;> (try dsimp only) <;> (repeat' (first | with_reducible assumption | with_reducible exact Nat.le_refl _ | with_reducible exact fun w => w | with_reducible rfl | with_reducible apply mk_after))

theorem tryImage_after {s u : State} (h : Keeps s u) : Keeps s (tryImage u).1 := by
  unfold tryImage
  (repeat' split) <;> (try dsimp only) <;> (repeat' (first | with_reducible assumption | with_reducible apply State_idle_after))

theorem State_takeHeader_after {s u : State} (base : Nat) (data : List Byte) (h : Keeps s u) : Keeps s (State.takeHeader u base data) := by
  unfold State.takeHeader
  (try dsimp only)
  (repeat' split) <;> (try dsimp only) <;> (repeat' (first | with_reducible assumption | with_reducible exact Nat.le_refl _ | with_reducible exact fun w => w | with_reducible rfl | with_reducible apply mk_after))

theorem State_takeImage_after {s u : State} (m : Nat) (header : Header) (data : List Byte) (h : Keeps s u) : Keeps s (State.takeImage u m header data) := by
  unfold State.takeImage
  (try dsimp only)
  (repeat' split) <;> (try dsimp only) <;> (repeat' (first | with_reducible assumption | with_reducible exact Nat.le_refl _ | with_reducible exact fun w => w | with_reducible rfl | with_reducible apply mk_after))

theorem readRing_after {s u : State} (h : Keeps s u) : Keeps s (readRing u).1 := by
  unfold readRing
  (repeat' split) <;> (try dsimp only) <;> (repeat' (first | with_reducible assumption | with_reducible apply State_idle_after))

theorem State_stopReplay_after {s u : State} (e : Nat) (torn : Bool) (h : Keeps s u) : Keeps s (State.stopReplay u e torn) := by
  unfold State.stopReplay
  (try dsimp only)
  (repeat' split) <;> (try dsimp only) <;> (repeat' (first | with_reducible assumption | with_reducible exact Nat.le_refl _ | with_reducible exact fun w => w | with_reducible rfl | with_reducible apply mk_after))

theorem State_takeBlock_after {s u : State} (m : Nat) (e : Nat) (data : List Byte) (h : Keeps s u) : Keeps s (State.takeBlock u m e data).1 := by
  unfold State.takeBlock
  (try dsimp only)
  (repeat' split) <;> (try dsimp only) <;> (repeat' (first | with_reducible assumption | with_reducible apply State_stopReplay_after | with_reducible exact Nat.le_refl _ | with_reducible exact fun w => w | with_reducible rfl | with_reducible apply mk_after))

theorem loadFailed_after {s u : State} (h : Keeps s u) : Keeps s (loadFailed u).1 := by
  unfold loadFailed
  (try dsimp only)
  (repeat' split) <;> (try dsimp only) <;> (repeat' (first | with_reducible assumption | with_reducible apply State_idle_after | with_reducible exact Nat.le_refl _ | with_reducible exact fun w => w | with_reducible rfl | with_reducible apply mk_after))

theorem loadEnded_after {s u : State} (use : LoadUse) (data : Option (List Byte)) (h : Keeps s u) : Keeps s (loadEnded use data u).1 := by
  unfold loadEnded
  dsimp only
  have k := State_issue_after .journal (data.elim 0 List.length) h
  generalize u.issue .journal (data.elim 0 List.length) = v at k ⊢
  (repeat' split) <;> (try dsimp only) <;> (repeat' (first | with_reducible assumption | with_reducible apply State_idle_after | with_reducible apply State_takeHeader_after | with_reducible apply State_takeImage_after | with_reducible apply State_takeBlock_after | with_reducible apply loadFailed_after | with_reducible exact Nat.le_refl _ | with_reducible exact fun w => w | with_reducible rfl | with_reducible apply mk_after))

theorem endReplay_after {s u : State} (h : Keeps s u) : Keeps s (endReplay u).1 := by
  unfold endReplay
  (try dsimp only)
  (repeat' split) <;> (try dsimp only) <;> (repeat' (first | with_reducible assumption | with_reducible exact Nat.le_refl _ | with_reducible exact fun w => w | with_reducible rfl | with_reducible apply mk_after))

theorem State_fillTables_after {s u : State} (t : Loaded) (h : Keeps s u) : Keeps s (State.fillTables u t) := by
  unfold State.fillTables
  (try dsimp only)
  (repeat' split) <;> (try dsimp only) <;> (repeat' (first | with_reducible assumption | with_reducible exact Nat.le_refl _ | with_reducible exact fun w => w | with_reducible rfl | with_reducible apply mk_after))

theorem reconcileObjects_after {s u : State} (h : Keeps s u) : Keeps s (reconcileObjects u).1 := by
  unfold reconcileObjects
  (try dsimp only)
  (repeat' split) <;> (try dsimp only) <;> (repeat' (first | with_reducible assumption | with_reducible apply State_append_after | with_reducible apply State_fillTables_after | with_reducible exact Nat.le_refl _ | with_reducible exact fun w => w | with_reducible rfl | with_reducible apply mk_after))

theorem reconcileChunks_after {s u : State} (h : Keeps s u) : Keeps s (reconcileChunks u).1 := by
  unfold reconcileChunks
  (try dsimp only)
  (repeat' split) <;> (try dsimp only) <;> (repeat' (first | with_reducible assumption | with_reducible apply State_append_after | with_reducible exact Nat.le_refl _ | with_reducible exact fun w => w | with_reducible rfl | with_reducible apply mk_after))

theorem State_chargePeers_after {s u : State} (h : Keeps s u) : Keeps s (State.chargePeers u) := by
  unfold State.chargePeers
  (try dsimp only)
  (repeat' split) <;> (try dsimp only) <;> (repeat' (first | with_reducible assumption | with_reducible exact Nat.le_refl _ | with_reducible exact fun w => w | with_reducible rfl | with_reducible apply mk_after))

theorem State_holdStripe_after {s u : State} (n : Nat) (h : Keeps s u) : Keeps s (State.holdStripe u n) := by
  unfold State.holdStripe
  (try dsimp only)
  (repeat' split) <;> (try dsimp only) <;> (repeat' (first | with_reducible assumption | with_reducible apply State_liveUp_after | with_reducible exact Nat.le_refl _ | with_reducible exact fun w => w | with_reducible rfl | with_reducible apply mk_after))

theorem reconcileStripes_after {s u : State} (h : Keeps s u) : Keeps s (reconcileStripes u).1 := by
  unfold reconcileStripes
  refine foldl_after (fun v e hv => ?_) _ (State_chargePeers_after h)
  cases e.loc with
  | none => exact hv
  | some l => exact State_holdStripe_after _ hv

theorem enterAwakeFirst_after {s u : State} (h : Keeps s u) : Keeps s (enterAwakeFirst u).1 := by
  unfold enterAwakeFirst
  (try dsimp only)
  (repeat' split) <;> (try dsimp only) <;> (repeat' (first | with_reducible assumption | with_reducible apply State_restartDeepIdle_after | with_reducible apply enterAwake_after))

theorem endStartup_after {s u : State} (h : Keeps s u) : Keeps s ((endStartup u).1) := by
  unfold endStartup
  (try dsimp only)
  (repeat' split) <;> (try dsimp only) <;> (repeat' (first | with_reducible assumption | with_reducible apply State_failMember_after | with_reducible exact Nat.le_refl _ | with_reducible exact fun w => w | with_reducible rfl | with_reducible apply mk_after))

theorem State_absentBay_after {s u : State} (b : BayNo) (h : Keeps s u) : Keeps s (State.absentBay u b) := by
  unfold State.absentBay
  (repeat' split) <;> (try dsimp only) <;> (repeat' (first | with_reducible assumption | with_reducible apply State_updBay_after))

theorem storeAbsent_after {s u : State} (h : Keeps s u) : Keeps s (storeAbsent u).1 := by
  unfold storeAbsent
  (try dsimp only)
  (repeat' split) <;> (try dsimp only) <;> (repeat' (first | with_reducible assumption | with_reducible apply State_idle_after | with_reducible apply State_absentBay_after | with_reducible exact Nat.le_refl _ | with_reducible exact fun w => w | with_reducible rfl | (with_reducible apply foldl_after; intro _ _ _) | with_reducible apply mk_after))

end Sys2Proof.Machine
end

