-- ==== Sys2Proof/Laws/KeepsTasks.lean ====
section
/-! SUPPORT. Laws/KeepsTasks.lean: every task, and so every piece of work, keeps what `Keeps` names; and how a short piece of
work runs out. -/

namespace Sys2Proof.Machine

/-- What a task can do: it keeps what `Keeps` names. -/
theorem carryOut_after {s u : State} (t : Task) (h : Keeps s u) : Keeps s (carryOut t u).1 := by
  cases t with
  | endWork => exact h
  | send m => exact State_send_after _ h
  | append r => exact State_append_after _ _ h
  | resume => exact resumeWork_after h
  | endResume => exact endResume_after h
  | closeBlock => exact closeBlock_after h
  | startCheckpoint => exact startCheckpoint_after h
  | offerBlocks => exact offerBlocks_after h
  | judgeBlocks => exact judgeBlocks_after h
  | journalDemand => exact journalDemand_after h
  | reported => exact reported_after h
  | journalEnded use done => exact journalEnded_after _ _ h
  | loadEnded use data => exact loadEnded_after _ _ h
  | stopJournal => exact stopJournal_after h
  | advanceCheckpoint => exact advanceCheckpoint_after h
  | offerPiece member index => exact offerPiece_after _ _ h
  | free name => exact freeEntry_after _ h
  | released stripes => exact releasedStripes_after _ h
  | decrement name => exact decrement_after _ h
  | abandonEntry name => exact abandonEntry_after _ h
  | checked name => exact checkedEntry_after _ h
  | markLost name loc => exact markLost_after _ _ h
  | entryChanged name => exact entryChanged_after _ h
  | toldLost name => exact State_tellLost_after _ h
  | pagesDue pages => exact pagesDue_after _ h
  | unhold pages => exact releaseHold_after _ h
  | pagesFreed => exact pagesFreed_after h
  | stagingDemand => exact stagingDemand_after h
  | askParity stripe => exact askParity_after _ h
  | releaseParity pages => exact releaseParity_after _ h
  | requestFill request => exact requestFill_after _ h
  | retryFills => exact retryFills_after h
  | unpin copy => exact unpin_after _ h
  | dropCopy copy => exact dropCopy_after _ h
  | reapCopy copy => exact reapCopy_after _ h
  | landed copy => exact landed_after _ h
  | readFailed copy => exact readFailed_after _ h
  | verified copy => exact verified_after _ h
  | walk => exact walk_after h
  | closeStripe => exact closeStripe_after h
  | judgeQueueing => exact judgeQueueing_after h
  | writeEnded stripe member done => exact writeEnded_after _ _ _ h
  | judgeWriteOut stripe => exact judgeWriteOut_after _ h
  | appendStored stripe slot => exact appendStored_after _ _ h
  | markStored stripe name => exact markStored_after _ _ h
  | writeOutTail stripe => exact writeOutTail_after _ h
  | judgeStored stripe => exact judgeStored_after _ h
  | slotStored stripe slot => exact slotStored_after _ _ h
  | stripeHeld stripe => exact stripeHeld_after _ h
  | judgeStripe stripe => exact judgeStripe_after _ h
  | abandonTail stripe => exact abandonTail_after _ h
  | routeRead copy => exact routeRead_after _ h
  | busyDown stripe => exact busyDown_after _ h
  | newJob kind stripe target length => exact newJob_after _ _ _ _ h
  | startJob job => exact startJob_after _ h
  | freePlace => exact freePlace_after h
  | sourceEnded job member stripe landed => exact sourceEnded_after _ _ _ _ h
  | withdrawRead copy => exact withdrawRead_after _ h
  | repair copy => exact repair_after _ h
  | repaired copy => exact repaired_after _ h
  | repairFailed copy => exact repairFailed_after _ h
  | repairEnded job => exact repairEnded_after _ h
  | repairDemand => exact repairDemand_after h
  | judgeRebuild => exact judgeRebuild_after h
  | rebuildStep => exact rebuildStep_after h
  | rebuildEnd => exact rebuildEnd_after h
  | haltRebuild => exact haltRebuild_after h
  | memberFailed member => exact memberFailed_after _ h
  | memberLeft member => exact memberLeft_after _ h
  | judgeCond => exact judgeCond_after h
  | storeBroken => exact storeBroken_after h
  | labelRound => exact labelRound_after h
  | offer bay giver cmd => exact offerCmd_after _ _ _ h
  | pump bay => exact pump_after _ h
  | placeFreed bay => exact placeFreed_after _ h
  | cmdFailed bay cmd => exact cmdFailed_after bay cmd h
  | declareFailed bay removed => exact declareFailed_after _ _ h
  | endPort bay => exact endPort_after _ h
  | leaveMember bay removed => exact leaveMember_after _ _ h
  | spinUp bay => exact spinUp_after _ h
  | substateReport => exact substateReport_after h
  | startProbe bay => exact startProbe_after _ h
  | classify bay => exact classify_after _ h
  | probeFailed bay => exact probeFailed_after _ h
  | takeLatch bay => exact takeLatch_after _ h
  | reinsert bay => exact reinsert_after _ h
  | rebuildWritten job => exact rebuildWritten_after _ h
  | commandEnded done => exact commandEnded_after _ h
  | removeObject id => exact removeObject_after _ h
  | dropObject id => exact dropObject_after _ h
  | releasePlay id => exact releasePlay_after _ h
  | albumFall id => exact albumFall_after _ h
  | takeEntry album => exact takeEntry_after _ h
  | freeAlbum album => exact freeAlbum_after _ h
  | objectRecords id run => exact objectRecords_after _ _ h
  | objectRecorded id run => exact objectRecorded_after _ _ h
  | discardObject id => exact discardObject_after _ h
  | endRun run => exact endRun_after _ h
  | closeAfterReclaim run => exact closeAfterReclaim_after _ h
  | abandonArrival index reason => exact abandonArrival_after _ _ h
  | freeArrival index => exact freeArrival_after _ h
  | reclaim run => exact reclaim_after _ h
  | closeZero run => exact closeZero_after _ h
  | judgeClose run => exact judgeClose_after _ h
  | completeRun run ok => exact completeRun_after _ _ h
  | fill slot => exact fill_after _ h
  | lookup slot place => exact lookup_after _ _ h
  | endTransfer slot reason => exact endTransfer_after _ _ h
  | endTail slot reason => exact endTail_after _ _ h
  | emit slot => exact emit_after _ h
  | peerDemand peer => exact peerDemand_after _ h
  | raise d => exact raiseDemand_after _ h
  | lower d => exact lowerDemand_after _ h
  | momentary => exact momentary_after h
  | flush => exact flush_after h
  | orderSpinUp => exact orderSpinUp_after h
  | enterWaking => exact enterWaking_after h
  | judgeAwake => exact judgeAwake_after h
  | enterAwake => exact enterAwake_after h
  | deepCheck => exact deepCheck_after h
  | answerWake dest seq => exact answerWake_after _ _ h
  | enterDeep => exact enterDeep_after h
  | exitDeep cause => exact exitDeep_after _ h
  | resumeTimers => exact resumeTimers_after h
  | takeReserve => exact takeReserve_after h
  | settle => exact settle_after h
  | startProbes => exact startProbes_after h
  | judgeProbes => exact judgeProbes_after h
  | assignMembers => exact assignMembers_after h
  | formStore => exact formStore_after h
  | judgeFormation => exact judgeFormation_after h
  | loadMember member => exact loadMember_after _ h
  | tryImage => exact tryImage_after h
  | readBlock => exact readRing_after h
  | endReplay => exact endReplay_after h
  | reconcileObjects => exact reconcileObjects_after h
  | reconcileChunks => exact reconcileChunks_after h
  | reconcileStripes => exact reconcileStripes_after h
  | endStartup => exact endStartup_after h
  | enterAwakeFirst => exact enterAwakeFirst_after h
  | storeAbsent => exact storeAbsent_after h

theorem taskStep_after {s u : State} (t : Task) (rest : List Task) (h : Keeps s u) : Keeps s (taskStep t rest u).1 := by
  unfold taskStep
  split
  · exact State_append_after _ _ h
  · exact carryOut_after _ h

theorem runTasks_after {s : State} : ∀ (n : Nat) (ts : List Task) {u : State}, Keeps s u → Keeps s (State.runTasks n ts u)
  | n, [], u, h => by
    cases n <;> exact h
  | 0, t :: ts, u, h => by
    apply mk_after h <;> first | exact Nat.le_refl _ | exact fun w => w | rfl
  | n + 1, t :: ts, u, h => runTasks_after n _ (taskStep_after t ts h)

/-- A piece of work keeps what `Keeps` names. -/
theorem finish_after {s : State} {w : Work} (h : Keeps s w.1) : Keeps s (State.finish w) := runTasks_after _ _ h

/-- Work with no task is done. -/
@[simp] theorem finish_nil (s : State) : State.finish (s, []) = s := rfl

/-- The first task of a piece of work is carried out with the others behind it. -/
theorem runTasks_cons (n : Nat) (t : Task) (ts : List Task) (s : State) :
    State.runTasks (n + 1) (t :: ts) s = State.runTasks n (taskStep t ts s).2 (taskStep t ts s).1 := rfl

@[simp] theorem runTasks_nil (n : Nat) (s : State) : State.runTasks n [] s = s := by
  cases n <;> rfl

/-- A task that leaves no further one is carried out, and the work goes on. -/
theorem runTasks_plain {n : Nat} {t : Task} {ts : List Task} {s : State} (hs : taskStep t ts s = ((carryOut t s).1, ts)) :
    State.runTasks (n + 1) (t :: ts) s = State.runTasks n ts (carryOut t s).1 := by
  rw [runTasks_cons, hs]

/-- The first task of a piece of work is carried out, and the rest runs on. -/
theorem finish_cons (t : Task) (ts : List Task) (s : State) : State.finish (s, t :: ts) =
    State.runTasks (Config.taskFuel - 1) (taskStep t ts s).2 (taskStep t ts s).1 := by
  show State.runTasks Config.taskFuel (t :: ts) s = _
  have hf : Config.taskFuel = (Config.taskFuel - 1) + 1 := by decide
  rw [hf, runTasks_cons]
  rfl

/-- A single task that leaves no further one is all that is carried out. -/
theorem finish_one {t : Task} {s : State} (hs : (taskStep t [] s).2 = []) : State.finish (s, [t]) = (taskStep t [] s).1 := by
  rw [finish_cons, hs, runTasks_nil]

end Sys2Proof.Machine
end

