-- ==== Sys2Proof/Laws/KeepsCommands.lean ====
section
/-! SUPPORT. Laws/KeepsCommands.lean: the remaining operations of the commands, those that lengthen a list within its places or
write DRAM, keep what `Keeps` names; what the resets leave; and the form of every command's meaning. -/

namespace Sys2Proof.Machine

theorem State_takeIn_after {s u : State} (frame : List Byte) (h : Keeps s u) : Keeps s (u.takeIn frame) := by
  unfold State.takeIn
  split
  · rename_i hc
    refine ⟨h.pending, h.now, h.image, h.straps, fun i => ?_⟩
    have j := h.inv i
    refine ⟨j.staging, j.cache, j.places, ?_, j.control, j.asks, j.runs, j.checks, j.blocks⟩
    show (u.link.fifo ++ [frame]).length ≤ _
    simp only [Bool.and_eq_true, decide_eq_true_eq] at hc
    simpa using hc.2
  · exact h

theorem pairAsk_after {s u : State} (m : Msg) (h : Keeps s u) : Keeps s (pairAsk m u).1 := by
  unfold pairAsk
  split
  · exact State_refuse_after _ _ h
  · split
    · exact State_refuse_after _ _ h
    · split
      · exact State_refuse_after _ _ h
      · split
        · exact State_refuse_after _ _ h
        · rename_i hn
          refine State_reply_after _ _ _ ⟨h.pending, h.now, h.image, h.straps, fun i => ?_⟩
          have j := h.inv i
          refine ⟨j.staging, j.cache, j.places, j.fifo, j.control, ?_, j.runs, j.checks, j.blocks⟩
          show (u.link.asks ++ [_]).length ≤ _
          simp only [List.length_append, List.length_singleton]
          omega

theorem State_enrol_after {s u : State} (m : Msg) (a : Ask) (n : Nat) (h : Keeps s u) : Keeps s (u.enrol m a n).1 := by
  unfold State.enrol
  apply mk_after (State_setPeer_after _ _ h) <;> first | exact Nat.le_refl _ | exact fun w => w | rfl

theorem pairConfirm_after {s u : State} (m : Msg) (h : Keeps s u) : Keeps s (pairConfirm m u).1 := by
  unfold pairConfirm
  split
  · exact State_refuse_after _ _ h
  · have k : Keeps s { u with link.asks := u.link.asks.filter fun b => b.mac ≠ m.src.mac } := by
      apply mk_after h <;> first | exact Nat.le_refl _ | exact fun w => w | rfl | exact List.length_filter_le ..
    dsimp only
    split
    · exact State_refuse_after _ _ k
    · exact State_enrol_after _ _ _ k

theorem runOpen_after {s u : State} (m : Msg) (h : Keeps s u) : Keeps s (runOpen m u).1 := by
  unfold runOpen
  dsimp only
  split
  · exact State_refuse_after _ _ h
  · rename_i hn
    refine State_reply_after _ _ _ ⟨h.pending, h.now, h.image, h.straps, fun i => ?_⟩
    have j := h.inv i
    refine ⟨j.staging, j.cache, j.places, j.fifo, j.control, j.asks, ?_, j.checks, j.blocks⟩
    show (u.ingest.runs ++ [_]).length ≤ _
    simp only [Bool.or_eq_true, decide_eq_true_eq, not_or] at hn
    simp only [List.length_append, List.length_singleton]
    omega

theorem chunk_after {s u : State} (m : Msg) (h : Keeps s u) : Keeps s (chunk m u).1 := by
  unfold chunk
  dsimp only
  split
  · exact State_idle_after h
  · split
    · exact State_idle_after h
    · split
      · rename_i k _ a _ _
        have key : ∀ (pages : List Nat) (off : Nat) (bs : List Byte),
            Keeps s { u with buf.stagingMem := u.buf.stagingMem.putChunk pages off bs } := by
          intro pages off bs
          apply mk_after h <;> first
            | exact Nat.le_refl _
            | exact fun w => w
            | rfl
            | exact fun w => Memory.wf_putChunk _ _ _ w
        split
        · exact State_queueIngestCheck_after _ (State_updEntry_after _ _ (State_setArrival_after _ _ (State_issue_after _ _ (key ..))))
        · exact State_setArrival_after _ _ (State_issue_after _ _ (key ..))
      · exact State_idle_after h

/-- A reset leaves every list empty and every memory clear. -/
theorem cleared_inv (s : State) (bays : Vector Bay 4) (loader : Loader) : (s.cleared bays loader).Inv where
  staging := Memory.wf_nil
  cache := Memory.wf_nil
  places := Memory.wf_nil
  fifo := Nat.zero_le _
  control := Nat.zero_le _
  asks := Nat.zero_le _
  runs := Nat.zero_le _
  checks := Nat.zero_le _
  blocks := Nat.zero_le _

/-! ## The form of a command's meaning -/

/-- With nothing unfinished and time not running back, a command finds the state as it was, at its time. -/
theorem arrive_of_settled {s : State} {t : Nat} (h : s.Settled t) : s.arrive t = s.atTime t := by
  obtain ⟨hd, _⟩ := h
  unfold State.arrive
  rw [hd]
  cases s
  simp only at hd
  subst hd
  rfl

theorem event_of_settled {s : State} {t : Nat} (h : s.Settled t) (f : State → Work) :
    s.event t f = .next (State.finish (f (s.atTime t))) := by
  unfold State.event
  rw [arrive_of_settled h]

/-- An event that leaves no task answers its state. -/
theorem event_plain {s : State} {t : Nat} (h : s.Settled t) (f : State → State) :
    s.event t (fun s => (f s, [])) = .next (f (s.atTime t)) := by
  rw [event_of_settled h, finish_nil]

/-- A message of the command's kind that passes R6 is handed to its block. -/
theorem message_dispatched {s : State} {t : Nat} {m : Msg} {mine : Msg → Bool} {act : Msg → State → Work}
    (h : s.Settled t) (hb : s.Brings t m .dispatch) (hm : mine m = true) :
    s.message t mine act = .next (State.finish (act m (s.met t m))) := by
  unfold State.message
  rw [event_of_settled h]
  unfold State.takeMessage State.met
  rw [hb.head]
  simp only [hm, hb.gate, if_true]

/-- A message that R6 refuses is answered so. -/
theorem message_refused {s : State} {t : Nat} {m : Msg} {mine : Msg → Bool} {act : Msg → State → Work} {st : Nat}
    (h : s.Settled t) (hb : s.Brings t m (.refuse st)) (hm : mine m = true) :
    s.message t mine act = .next ((s.met t m).reply m st []) := by
  unfold State.message
  rw [event_of_settled h]
  unfold State.takeMessage State.met
  rw [hb.head]
  simp only [hm, hb.gate, if_true]
  rfl

/-- A message that R6 drops changes only what R7 and R13 give. -/
theorem message_dropped {s : State} {t : Nat} {m : Msg} {mine : Msg → Bool} {act : Msg → State → Work}
    (h : s.Settled t) (hb : s.Brings t m .drop) (hm : mine m = true) :
    s.message t mine act = .next (s.met t m) := by
  unfold State.message
  rw [event_of_settled h]
  unfold State.takeMessage State.met
  rw [hb.head]
  simp only [hm, hb.gate, if_true]
  rfl

end Sys2Proof.Machine
end

