-- ==== Sys2Proof/WellFormed.lean ====
section
/-! DEFINITION. WellFormed.lean: the operands a command's event can carry: lengths of what the flash and the disks give,
attempts of disk commands, and run ids. -/

namespace Sys2Proof

/-- The flash gives the 256 bytes of the configuration record (R194). -/
def flashFits (answer : Option (List Byte)) : Bool := answer.all fun b => b.length = 256

/-- A label read gives one block; a label write gives nothing (R117). -/
def labelFits (data : List Byte) : Bool := data.length = 0 || data.length = Config.blockBytes

/-- A READ-SLOT gives at most 1 MiB (R119). -/
def slotFits (data : List Byte) : Bool := data.length ≤ Config.mib

/-- A READ-JOURNAL gives a whole number of blocks (R119). -/
def journalFits (data : List Byte) : Bool := data.length % Config.blockBytes = 0

/-- A run id is 1..65,535 (R57). -/
def runFits (run : Nat) : Bool := 1 ≤ run && run ≤ 65535

/-- A disk command is tried once or twice (R120). -/
def attemptFits (attempt : Nat) : Bool := attempt = 1 || attempt = 2

/-- The command is well formed. -/
def Instr.wf : Instr → Bool
  | .configReadEnd _ answer => flashFits answer
  | .capacityReadEnd _ report _ => attemptFits report.attempt
  | .labelDone _ report data => attemptFits report.attempt && labelFits data
  | .readSlotDone _ report data => attemptFits report.attempt && slotFits data
  | .writeSlotDone _ report => attemptFits report.attempt
  | .readJournalDone _ report data => attemptFits report.attempt && journalFits data
  | .writeJournalDone _ report => attemptFits report.attempt
  | .spinDownDone _ report => attemptFits report.attempt
  | .commandAttemptFailed _ report => attemptFits report.attempt
  | .runIdleTimeout _ run => runFits run
  | _ => true

end Sys2Proof
end

