-- ==== Sys2Proof/Laws/PerInstr.lean ====
section
/-! SUPPORT. Laws/PerInstr.lean: one family of statements made for each command. Timed: the time is a stamp and nothing more:
a command moved to another time carries that time, has the same operands, and is as well formed as before. -/

namespace Sys2Proof

/-- The command at another time. -/
def Instr.movedTo (i : Instr) (u : Nat) : Instr :=
  match i with
  | .coldReset _ straps present => .coldReset u straps present
  | .warmReset _ => .warmReset u
  | .configReadEnd _ answer => .configReadEnd u answer
  | .capacityReadEnd _ report capacity => .capacityReadEnd u report capacity
  | .labelDone _ report data => .labelDone u report data
  | .frameArrival _ frame => .frameArrival u frame
  | .frameDropped _ => .frameDropped u
  | .arpRequest _ => .arpRequest u
  | .hello _ => .hello u
  | .pairAsk _ => .pairAsk u
  | .pairConfirm _ => .pairConfirm u
  | .unpair _ => .unpair u
  | .query _ => .query u
  | .wake _ => .wake u
  | .runOpen _ => .runOpen u
  | .runClose _ => .runClose u
  | .runAbort _ => .runAbort u
  | .offer _ => .offer u
  | .chunk _ => .chunk u
  | .arrivalTimeout _ record => .arrivalTimeout u record
  | .runIdleTimeout _ run => .runIdleTimeout u run
  | .checkLaneTake _ lane verifyFirst => .checkLaneTake u lane verifyFirst
  | .checkResultIngest _ lane => .checkResultIngest u lane
  | .checkResultVerify _ lane => .checkResultVerify u lane
  | .objectBegin _ => .objectBegin u
  | .objectAppend _ => .objectAppend u
  | .objectFinish _ => .objectFinish u
  | .objectDelete _ => .objectDelete u
  | .objectInfo _ => .objectInfo u
  | .albumCreate _ => .albumCreate u
  | .albumAdd _ => .albumAdd u
  | .albumRemove _ => .albumRemove u
  | .albumDrop _ => .albumDrop u
  | .albumList _ => .albumList u
  | .play _ => .play u
  | .resume _ => .resume u
  | .jumpFloor _ => .jumpFloor u
  | .jumpPeak _ => .jumpPeak u
  | .easeFloor _ => .easeFloor u
  | .easePeak _ => .easePeak u
  | .retune _ => .retune u
  | .retarget _ => .retarget u
  | .dropNext _ => .dropNext u
  | .stop _ => .stop u
  | .taperStop _ => .taperStop u
  | .allStop _ => .allStop u
  | .viewReport _ => .viewReport u
  | .groupCall _ => .groupCall u
  | .haltCall _ => .haltCall u
  | .groupGo _ => .groupGo u
  | .groupHalt _ => .groupHalt u
  | .transmitArbiter _ => .transmitArbiter u
  | .announceTimer _ => .announceTimer u
  | .pairingWindowExpiry _ => .pairingWindowExpiry u
  | .pendingAskExpiry _ mac => .pendingAskExpiry u mac
  | .pacingInterval _ slot => .pacingInterval u slot
  | .stalledInterval _ slot => .stalledInterval u slot
  | .stallTimeout _ slot => .stallTimeout u slot
  | .resumeRecordExpiry _ slot => .resumeRecordExpiry u slot
  | .primedTimeout _ slot => .primedTimeout u slot
  | .blockTimer _ => .blockTimer u
  | .closeTimer _ => .closeTimer u
  | .xorJobTake _ => .xorJobTake u
  | .parityJobEnd _ => .parityJobEnd u
  | .reconstructionJobEnd _ => .reconstructionJobEnd u
  | .dramTurnEnd _ => .dramTurnEnd u
  | .readSlotDone _ report data => .readSlotDone u report data
  | .writeSlotDone _ report => .writeSlotDone u report
  | .readJournalDone _ report data => .readJournalDone u report data
  | .writeJournalDone _ report => .writeJournalDone u report
  | .spinDownDone _ report => .spinDownDone u report
  | .commandAttemptFailed _ report => .commandAttemptFailed u report
  | .commandTimeout _ bay => .commandTimeout u bay
  | .spinUpReady _ bay => .spinUpReady u bay
  | .spinUpTimeout _ bay => .spinUpTimeout u bay
  | .powerCycleOn _ bay => .powerCycleOn u bay
  | .diskInserted _ bay same => .diskInserted u bay same
  | .diskRemoved _ bay => .diskRemoved u bay
  | .buttonLineChange _ button pressed => .buttonLineChange u button pressed
  | .buttonDebounceExpiry _ button => .buttonDebounceExpiry u button
  | .diskIdleTimer _ => .diskIdleTimer u
  | .qualifierWindowExpiry _ => .qualifierWindowExpiry u
  | .deepIdleTimer _ => .deepIdleTimer u
  | .unknownKindCode _ => .unknownKindCode u

end Sys2Proof

namespace Sys2Proof.Laws.Timed

/-- Moving a command sets its time and nothing else. -/
def Statement (i : Instr) : Prop :=
  ∀ u, (i.movedTo u).time = u ∧ (i.movedTo u).wf = i.wf ∧ (i.movedTo u).movedTo i.time = i

theorem coldReset (t : Nat) (straps : Straps) (present : Vector Bool 4) : Statement (.coldReset t straps present) := fun _ => ⟨rfl, rfl, rfl⟩
theorem warmReset (t : Nat) : Statement (.warmReset t) := fun _ => ⟨rfl, rfl, rfl⟩
theorem configReadEnd (t : Nat) (answer : Option (List Byte)) : Statement (.configReadEnd t answer) := fun _ => ⟨rfl, rfl, rfl⟩
theorem capacityReadEnd (t : Nat) (report : DiskReport) (capacity : Nat) : Statement (.capacityReadEnd t report capacity) := fun _ => ⟨rfl, rfl, rfl⟩
theorem labelDone (t : Nat) (report : DiskReport) (data : List Byte) : Statement (.labelDone t report data) := fun _ => ⟨rfl, rfl, rfl⟩
theorem frameArrival (t : Nat) (frame : List Byte) : Statement (.frameArrival t frame) := fun _ => ⟨rfl, rfl, rfl⟩
theorem frameDropped (t : Nat) : Statement (.frameDropped t) := fun _ => ⟨rfl, rfl, rfl⟩
theorem arpRequest (t : Nat) : Statement (.arpRequest t) := fun _ => ⟨rfl, rfl, rfl⟩
theorem hello (t : Nat) : Statement (.hello t) := fun _ => ⟨rfl, rfl, rfl⟩
theorem pairAsk (t : Nat) : Statement (.pairAsk t) := fun _ => ⟨rfl, rfl, rfl⟩
theorem pairConfirm (t : Nat) : Statement (.pairConfirm t) := fun _ => ⟨rfl, rfl, rfl⟩
theorem unpair (t : Nat) : Statement (.unpair t) := fun _ => ⟨rfl, rfl, rfl⟩
theorem query (t : Nat) : Statement (.query t) := fun _ => ⟨rfl, rfl, rfl⟩
theorem wake (t : Nat) : Statement (.wake t) := fun _ => ⟨rfl, rfl, rfl⟩
theorem runOpen (t : Nat) : Statement (.runOpen t) := fun _ => ⟨rfl, rfl, rfl⟩
theorem runClose (t : Nat) : Statement (.runClose t) := fun _ => ⟨rfl, rfl, rfl⟩
theorem runAbort (t : Nat) : Statement (.runAbort t) := fun _ => ⟨rfl, rfl, rfl⟩
theorem offer (t : Nat) : Statement (.offer t) := fun _ => ⟨rfl, rfl, rfl⟩
theorem chunk (t : Nat) : Statement (.chunk t) := fun _ => ⟨rfl, rfl, rfl⟩
theorem arrivalTimeout (t : Nat) (record : Fin 32) : Statement (.arrivalTimeout t record) := fun _ => ⟨rfl, rfl, rfl⟩
theorem runIdleTimeout (t : Nat) (run : Nat) : Statement (.runIdleTimeout t run) := fun _ => ⟨rfl, rfl, rfl⟩
theorem checkLaneTake (t : Nat) (lane : Fin 2) (verifyFirst : Bool) : Statement (.checkLaneTake t lane verifyFirst) := fun _ => ⟨rfl, rfl, rfl⟩
theorem checkResultIngest (t : Nat) (lane : Fin 2) : Statement (.checkResultIngest t lane) := fun _ => ⟨rfl, rfl, rfl⟩
theorem checkResultVerify (t : Nat) (lane : Fin 2) : Statement (.checkResultVerify t lane) := fun _ => ⟨rfl, rfl, rfl⟩
theorem objectBegin (t : Nat) : Statement (.objectBegin t) := fun _ => ⟨rfl, rfl, rfl⟩
theorem objectAppend (t : Nat) : Statement (.objectAppend t) := fun _ => ⟨rfl, rfl, rfl⟩
theorem objectFinish (t : Nat) : Statement (.objectFinish t) := fun _ => ⟨rfl, rfl, rfl⟩
theorem objectDelete (t : Nat) : Statement (.objectDelete t) := fun _ => ⟨rfl, rfl, rfl⟩
theorem objectInfo (t : Nat) : Statement (.objectInfo t) := fun _ => ⟨rfl, rfl, rfl⟩
theorem albumCreate (t : Nat) : Statement (.albumCreate t) := fun _ => ⟨rfl, rfl, rfl⟩
theorem albumAdd (t : Nat) : Statement (.albumAdd t) := fun _ => ⟨rfl, rfl, rfl⟩
theorem albumRemove (t : Nat) : Statement (.albumRemove t) := fun _ => ⟨rfl, rfl, rfl⟩
theorem albumDrop (t : Nat) : Statement (.albumDrop t) := fun _ => ⟨rfl, rfl, rfl⟩
theorem albumList (t : Nat) : Statement (.albumList t) := fun _ => ⟨rfl, rfl, rfl⟩
theorem play (t : Nat) : Statement (.play t) := fun _ => ⟨rfl, rfl, rfl⟩
theorem resume (t : Nat) : Statement (.resume t) := fun _ => ⟨rfl, rfl, rfl⟩
theorem jumpFloor (t : Nat) : Statement (.jumpFloor t) := fun _ => ⟨rfl, rfl, rfl⟩
theorem jumpPeak (t : Nat) : Statement (.jumpPeak t) := fun _ => ⟨rfl, rfl, rfl⟩
theorem easeFloor (t : Nat) : Statement (.easeFloor t) := fun _ => ⟨rfl, rfl, rfl⟩
theorem easePeak (t : Nat) : Statement (.easePeak t) := fun _ => ⟨rfl, rfl, rfl⟩
theorem retune (t : Nat) : Statement (.retune t) := fun _ => ⟨rfl, rfl, rfl⟩
theorem retarget (t : Nat) : Statement (.retarget t) := fun _ => ⟨rfl, rfl, rfl⟩
theorem dropNext (t : Nat) : Statement (.dropNext t) := fun _ => ⟨rfl, rfl, rfl⟩
theorem stop (t : Nat) : Statement (.stop t) := fun _ => ⟨rfl, rfl, rfl⟩
theorem taperStop (t : Nat) : Statement (.taperStop t) := fun _ => ⟨rfl, rfl, rfl⟩
theorem allStop (t : Nat) : Statement (.allStop t) := fun _ => ⟨rfl, rfl, rfl⟩
theorem viewReport (t : Nat) : Statement (.viewReport t) := fun _ => ⟨rfl, rfl, rfl⟩
theorem groupCall (t : Nat) : Statement (.groupCall t) := fun _ => ⟨rfl, rfl, rfl⟩
theorem haltCall (t : Nat) : Statement (.haltCall t) := fun _ => ⟨rfl, rfl, rfl⟩
theorem groupGo (t : Nat) : Statement (.groupGo t) := fun _ => ⟨rfl, rfl, rfl⟩
theorem groupHalt (t : Nat) : Statement (.groupHalt t) := fun _ => ⟨rfl, rfl, rfl⟩
theorem transmitArbiter (t : Nat) : Statement (.transmitArbiter t) := fun _ => ⟨rfl, rfl, rfl⟩
theorem announceTimer (t : Nat) : Statement (.announceTimer t) := fun _ => ⟨rfl, rfl, rfl⟩
theorem pairingWindowExpiry (t : Nat) : Statement (.pairingWindowExpiry t) := fun _ => ⟨rfl, rfl, rfl⟩
theorem pendingAskExpiry (t : Nat) (mac : Mac) : Statement (.pendingAskExpiry t mac) := fun _ => ⟨rfl, rfl, rfl⟩
theorem pacingInterval (t : Nat) (slot : SlotNo) : Statement (.pacingInterval t slot) := fun _ => ⟨rfl, rfl, rfl⟩
theorem stalledInterval (t : Nat) (slot : SlotNo) : Statement (.stalledInterval t slot) := fun _ => ⟨rfl, rfl, rfl⟩
theorem stallTimeout (t : Nat) (slot : SlotNo) : Statement (.stallTimeout t slot) := fun _ => ⟨rfl, rfl, rfl⟩
theorem resumeRecordExpiry (t : Nat) (slot : SlotNo) : Statement (.resumeRecordExpiry t slot) := fun _ => ⟨rfl, rfl, rfl⟩
theorem primedTimeout (t : Nat) (slot : SlotNo) : Statement (.primedTimeout t slot) := fun _ => ⟨rfl, rfl, rfl⟩
theorem blockTimer (t : Nat) : Statement (.blockTimer t) := fun _ => ⟨rfl, rfl, rfl⟩
theorem closeTimer (t : Nat) : Statement (.closeTimer t) := fun _ => ⟨rfl, rfl, rfl⟩
theorem xorJobTake (t : Nat) : Statement (.xorJobTake t) := fun _ => ⟨rfl, rfl, rfl⟩
theorem parityJobEnd (t : Nat) : Statement (.parityJobEnd t) := fun _ => ⟨rfl, rfl, rfl⟩
theorem reconstructionJobEnd (t : Nat) : Statement (.reconstructionJobEnd t) := fun _ => ⟨rfl, rfl, rfl⟩
theorem dramTurnEnd (t : Nat) : Statement (.dramTurnEnd t) := fun _ => ⟨rfl, rfl, rfl⟩
theorem readSlotDone (t : Nat) (report : DiskReport) (data : List Byte) : Statement (.readSlotDone t report data) := fun _ => ⟨rfl, rfl, rfl⟩
theorem writeSlotDone (t : Nat) (report : DiskReport) : Statement (.writeSlotDone t report) := fun _ => ⟨rfl, rfl, rfl⟩
theorem readJournalDone (t : Nat) (report : DiskReport) (data : List Byte) : Statement (.readJournalDone t report data) := fun _ => ⟨rfl, rfl, rfl⟩
theorem writeJournalDone (t : Nat) (report : DiskReport) : Statement (.writeJournalDone t report) := fun _ => ⟨rfl, rfl, rfl⟩
theorem spinDownDone (t : Nat) (report : DiskReport) : Statement (.spinDownDone t report) := fun _ => ⟨rfl, rfl, rfl⟩
theorem commandAttemptFailed (t : Nat) (report : DiskReport) : Statement (.commandAttemptFailed t report) := fun _ => ⟨rfl, rfl, rfl⟩
theorem commandTimeout (t : Nat) (bay : BayNo) : Statement (.commandTimeout t bay) := fun _ => ⟨rfl, rfl, rfl⟩
theorem spinUpReady (t : Nat) (bay : BayNo) : Statement (.spinUpReady t bay) := fun _ => ⟨rfl, rfl, rfl⟩
theorem spinUpTimeout (t : Nat) (bay : BayNo) : Statement (.spinUpTimeout t bay) := fun _ => ⟨rfl, rfl, rfl⟩
theorem powerCycleOn (t : Nat) (bay : BayNo) : Statement (.powerCycleOn t bay) := fun _ => ⟨rfl, rfl, rfl⟩
theorem diskInserted (t : Nat) (bay : BayNo) (same : Bool) : Statement (.diskInserted t bay same) := fun _ => ⟨rfl, rfl, rfl⟩
theorem diskRemoved (t : Nat) (bay : BayNo) : Statement (.diskRemoved t bay) := fun _ => ⟨rfl, rfl, rfl⟩
theorem buttonLineChange (t : Nat) (button : Button) (pressed : Bool) : Statement (.buttonLineChange t button pressed) := fun _ => ⟨rfl, rfl, rfl⟩
theorem buttonDebounceExpiry (t : Nat) (button : Button) : Statement (.buttonDebounceExpiry t button) := fun _ => ⟨rfl, rfl, rfl⟩
theorem diskIdleTimer (t : Nat) : Statement (.diskIdleTimer t) := fun _ => ⟨rfl, rfl, rfl⟩
theorem qualifierWindowExpiry (t : Nat) : Statement (.qualifierWindowExpiry t) := fun _ => ⟨rfl, rfl, rfl⟩
theorem deepIdleTimer (t : Nat) : Statement (.deepIdleTimer t) := fun _ => ⟨rfl, rfl, rfl⟩
theorem unknownKindCode (t : Nat) : Statement (.unknownKindCode t) := fun _ => ⟨rfl, rfl, rfl⟩

end Sys2Proof.Laws.Timed
end

