-- ==== Sys2Proof/Laws/State.lean ====
section
/-! SUPPORT. Laws/State.lean: what each shared update leaves alone, one lemma for each field it does not touch, so that no
proof unfolds a record update. -/

namespace Sys2Proof.Machine

/-! ## setPeer -/

@[simp] theorem State.setPeer_pending (s : State) (n : Nat) (p : Option Peer) : (s.setPeer n p).pending = s.pending := rfl
@[simp] theorem State.setPeer_now (s : State) (n : Nat) (p : Option Peer) : (s.setPeer n p).now = s.now := rfl
@[simp] theorem State.setPeer_unfinished (s : State) (n : Nat) (p : Option Peer) : (s.setPeer n p).unfinished = s.unfinished := rfl
@[simp] theorem State.setPeer_choices (s : State) (n : Nat) (p : Option Peer) : (s.setPeer n p).choices = s.choices := rfl
@[simp] theorem State.setPeer_index (s : State) (n : Nat) (p : Option Peer) : (s.setPeer n p).index = s.index := rfl
@[simp] theorem State.setPeer_tables (s : State) (n : Nat) (p : Option Peer) : (s.setPeer n p).tables = s.tables := rfl
@[simp] theorem State.setPeer_ingest (s : State) (n : Nat) (p : Option Peer) : (s.setPeer n p).ingest = s.ingest := rfl
@[simp] theorem State.setPeer_buf (s : State) (n : Nat) (p : Option Peer) : (s.setPeer n p).buf = s.buf := rfl
@[simp] theorem State.setPeer_store (s : State) (n : Nat) (p : Option Peer) : (s.setPeer n p).store = s.store := rfl
@[simp] theorem State.setPeer_bays (s : State) (n : Nat) (p : Option Peer) : (s.setPeer n p).bays = s.bays := rfl
@[simp] theorem State.setPeer_labelGen (s : State) (n : Nat) (p : Option Peer) : (s.setPeer n p).labelGen = s.labelGen := rfl
@[simp] theorem State.setPeer_slots (s : State) (n : Nat) (p : Option Peer) : (s.setPeer n p).slots = s.slots := rfl
@[simp] theorem State.setPeer_power (s : State) (n : Nat) (p : Option Peer) : (s.setPeer n p).power = s.power := rfl
@[simp] theorem State.setPeer_journal (s : State) (n : Nat) (p : Option Peer) : (s.setPeer n p).journal = s.journal := rfl
@[simp] theorem State.setPeer_loader (s : State) (n : Nat) (p : Option Peer) : (s.setPeer n p).loader = s.loader := rfl
@[simp] theorem State.setPeer_link_fifo (s : State) (n : Nat) (p : Option Peer) : (s.setPeer n p).link.fifo = s.link.fifo := rfl
@[simp] theorem State.setPeer_link_control (s : State) (n : Nat) (p : Option Peer) : (s.setPeer n p).link.control = s.link.control := rfl
@[simp] theorem State.setPeer_link_tagCounter (s : State) (n : Nat) (p : Option Peer) : (s.setPeer n p).link.tagCounter = s.link.tagCounter := rfl
@[simp] theorem State.setPeer_link_asks (s : State) (n : Nat) (p : Option Peer) : (s.setPeer n p).link.asks = s.link.asks := rfl
@[simp] theorem State.setPeer_link_window (s : State) (n : Nat) (p : Option Peer) : (s.setPeer n p).link.window = s.link.window := rfl
@[simp] theorem State.setPeer_link_announce (s : State) (n : Nat) (p : Option Peer) : (s.setPeer n p).link.announce = s.link.announce := rfl
@[simp] theorem State.setPeer_link_ipId (s : State) (n : Nat) (p : Option Peer) : (s.setPeer n p).link.ipId = s.link.ipId := rfl
@[simp] theorem State.setPeer_link_lastSlot (s : State) (n : Nat) (p : Option Peer) : (s.setPeer n p).link.lastSlot = s.link.lastSlot := rfl
@[simp] theorem State.setPeer_link_tx (s : State) (n : Nat) (p : Option Peer) : (s.setPeer n p).link.tx = s.link.tx := rfl

/-! ## updPeer -/

@[simp] theorem State.updPeer_pending (s : State) (n : Nat) (f : Peer → Peer) : (s.updPeer n f).pending = s.pending := rfl
@[simp] theorem State.updPeer_now (s : State) (n : Nat) (f : Peer → Peer) : (s.updPeer n f).now = s.now := rfl
@[simp] theorem State.updPeer_unfinished (s : State) (n : Nat) (f : Peer → Peer) : (s.updPeer n f).unfinished = s.unfinished := rfl
@[simp] theorem State.updPeer_choices (s : State) (n : Nat) (f : Peer → Peer) : (s.updPeer n f).choices = s.choices := rfl
@[simp] theorem State.updPeer_index (s : State) (n : Nat) (f : Peer → Peer) : (s.updPeer n f).index = s.index := rfl
@[simp] theorem State.updPeer_tables (s : State) (n : Nat) (f : Peer → Peer) : (s.updPeer n f).tables = s.tables := rfl
@[simp] theorem State.updPeer_ingest (s : State) (n : Nat) (f : Peer → Peer) : (s.updPeer n f).ingest = s.ingest := rfl
@[simp] theorem State.updPeer_buf (s : State) (n : Nat) (f : Peer → Peer) : (s.updPeer n f).buf = s.buf := rfl
@[simp] theorem State.updPeer_store (s : State) (n : Nat) (f : Peer → Peer) : (s.updPeer n f).store = s.store := rfl
@[simp] theorem State.updPeer_bays (s : State) (n : Nat) (f : Peer → Peer) : (s.updPeer n f).bays = s.bays := rfl
@[simp] theorem State.updPeer_labelGen (s : State) (n : Nat) (f : Peer → Peer) : (s.updPeer n f).labelGen = s.labelGen := rfl
@[simp] theorem State.updPeer_slots (s : State) (n : Nat) (f : Peer → Peer) : (s.updPeer n f).slots = s.slots := rfl
@[simp] theorem State.updPeer_power (s : State) (n : Nat) (f : Peer → Peer) : (s.updPeer n f).power = s.power := rfl
@[simp] theorem State.updPeer_journal (s : State) (n : Nat) (f : Peer → Peer) : (s.updPeer n f).journal = s.journal := rfl
@[simp] theorem State.updPeer_loader (s : State) (n : Nat) (f : Peer → Peer) : (s.updPeer n f).loader = s.loader := rfl
@[simp] theorem State.updPeer_link_fifo (s : State) (n : Nat) (f : Peer → Peer) : (s.updPeer n f).link.fifo = s.link.fifo := rfl
@[simp] theorem State.updPeer_link_control (s : State) (n : Nat) (f : Peer → Peer) : (s.updPeer n f).link.control = s.link.control := rfl
@[simp] theorem State.updPeer_link_tagCounter (s : State) (n : Nat) (f : Peer → Peer) : (s.updPeer n f).link.tagCounter = s.link.tagCounter := rfl
@[simp] theorem State.updPeer_link_asks (s : State) (n : Nat) (f : Peer → Peer) : (s.updPeer n f).link.asks = s.link.asks := rfl
@[simp] theorem State.updPeer_link_window (s : State) (n : Nat) (f : Peer → Peer) : (s.updPeer n f).link.window = s.link.window := rfl
@[simp] theorem State.updPeer_link_announce (s : State) (n : Nat) (f : Peer → Peer) : (s.updPeer n f).link.announce = s.link.announce := rfl
@[simp] theorem State.updPeer_link_ipId (s : State) (n : Nat) (f : Peer → Peer) : (s.updPeer n f).link.ipId = s.link.ipId := rfl
@[simp] theorem State.updPeer_link_lastSlot (s : State) (n : Nat) (f : Peer → Peer) : (s.updPeer n f).link.lastSlot = s.link.lastSlot := rfl
@[simp] theorem State.updPeer_link_tx (s : State) (n : Nat) (f : Peer → Peer) : (s.updPeer n f).link.tx = s.link.tx := rfl

/-! ## updEntry -/

@[simp] theorem State.updEntry_pending (s : State) (n : Name) (f : Entry → Entry) : (s.updEntry n f).pending = s.pending := rfl
@[simp] theorem State.updEntry_now (s : State) (n : Name) (f : Entry → Entry) : (s.updEntry n f).now = s.now := rfl
@[simp] theorem State.updEntry_unfinished (s : State) (n : Name) (f : Entry → Entry) : (s.updEntry n f).unfinished = s.unfinished := rfl
@[simp] theorem State.updEntry_choices (s : State) (n : Name) (f : Entry → Entry) : (s.updEntry n f).choices = s.choices := rfl
@[simp] theorem State.updEntry_link (s : State) (n : Name) (f : Entry → Entry) : (s.updEntry n f).link = s.link := rfl
@[simp] theorem State.updEntry_tables (s : State) (n : Name) (f : Entry → Entry) : (s.updEntry n f).tables = s.tables := rfl
@[simp] theorem State.updEntry_ingest (s : State) (n : Name) (f : Entry → Entry) : (s.updEntry n f).ingest = s.ingest := rfl
@[simp] theorem State.updEntry_buf (s : State) (n : Name) (f : Entry → Entry) : (s.updEntry n f).buf = s.buf := rfl
@[simp] theorem State.updEntry_store (s : State) (n : Name) (f : Entry → Entry) : (s.updEntry n f).store = s.store := rfl
@[simp] theorem State.updEntry_bays (s : State) (n : Name) (f : Entry → Entry) : (s.updEntry n f).bays = s.bays := rfl
@[simp] theorem State.updEntry_labelGen (s : State) (n : Name) (f : Entry → Entry) : (s.updEntry n f).labelGen = s.labelGen := rfl
@[simp] theorem State.updEntry_slots (s : State) (n : Name) (f : Entry → Entry) : (s.updEntry n f).slots = s.slots := rfl
@[simp] theorem State.updEntry_power (s : State) (n : Name) (f : Entry → Entry) : (s.updEntry n f).power = s.power := rfl
@[simp] theorem State.updEntry_journal (s : State) (n : Name) (f : Entry → Entry) : (s.updEntry n f).journal = s.journal := rfl
@[simp] theorem State.updEntry_loader (s : State) (n : Name) (f : Entry → Entry) : (s.updEntry n f).loader = s.loader := rfl

/-! ## dropEntry -/

@[simp] theorem State.dropEntry_pending (s : State) (n : Name) : (s.dropEntry n).pending = s.pending := rfl
@[simp] theorem State.dropEntry_now (s : State) (n : Name) : (s.dropEntry n).now = s.now := rfl
@[simp] theorem State.dropEntry_unfinished (s : State) (n : Name) : (s.dropEntry n).unfinished = s.unfinished := rfl
@[simp] theorem State.dropEntry_choices (s : State) (n : Name) : (s.dropEntry n).choices = s.choices := rfl
@[simp] theorem State.dropEntry_link (s : State) (n : Name) : (s.dropEntry n).link = s.link := rfl
@[simp] theorem State.dropEntry_tables (s : State) (n : Name) : (s.dropEntry n).tables = s.tables := rfl
@[simp] theorem State.dropEntry_ingest (s : State) (n : Name) : (s.dropEntry n).ingest = s.ingest := rfl
@[simp] theorem State.dropEntry_buf (s : State) (n : Name) : (s.dropEntry n).buf = s.buf := rfl
@[simp] theorem State.dropEntry_store (s : State) (n : Name) : (s.dropEntry n).store = s.store := rfl
@[simp] theorem State.dropEntry_bays (s : State) (n : Name) : (s.dropEntry n).bays = s.bays := rfl
@[simp] theorem State.dropEntry_labelGen (s : State) (n : Name) : (s.dropEntry n).labelGen = s.labelGen := rfl
@[simp] theorem State.dropEntry_slots (s : State) (n : Name) : (s.dropEntry n).slots = s.slots := rfl
@[simp] theorem State.dropEntry_power (s : State) (n : Name) : (s.dropEntry n).power = s.power := rfl
@[simp] theorem State.dropEntry_journal (s : State) (n : Name) : (s.dropEntry n).journal = s.journal := rfl
@[simp] theorem State.dropEntry_loader (s : State) (n : Name) : (s.dropEntry n).loader = s.loader := rfl

/-! ## updObj -/

@[simp] theorem State.updObj_pending (s : State) (id : Nat) (f : Obj → Obj) : (s.updObj id f).pending = s.pending := rfl
@[simp] theorem State.updObj_now (s : State) (id : Nat) (f : Obj → Obj) : (s.updObj id f).now = s.now := rfl
@[simp] theorem State.updObj_unfinished (s : State) (id : Nat) (f : Obj → Obj) : (s.updObj id f).unfinished = s.unfinished := rfl
@[simp] theorem State.updObj_choices (s : State) (id : Nat) (f : Obj → Obj) : (s.updObj id f).choices = s.choices := rfl
@[simp] theorem State.updObj_link (s : State) (id : Nat) (f : Obj → Obj) : (s.updObj id f).link = s.link := rfl
@[simp] theorem State.updObj_index (s : State) (id : Nat) (f : Obj → Obj) : (s.updObj id f).index = s.index := rfl
@[simp] theorem State.updObj_ingest (s : State) (id : Nat) (f : Obj → Obj) : (s.updObj id f).ingest = s.ingest := rfl
@[simp] theorem State.updObj_buf (s : State) (id : Nat) (f : Obj → Obj) : (s.updObj id f).buf = s.buf := rfl
@[simp] theorem State.updObj_store (s : State) (id : Nat) (f : Obj → Obj) : (s.updObj id f).store = s.store := rfl
@[simp] theorem State.updObj_bays (s : State) (id : Nat) (f : Obj → Obj) : (s.updObj id f).bays = s.bays := rfl
@[simp] theorem State.updObj_labelGen (s : State) (id : Nat) (f : Obj → Obj) : (s.updObj id f).labelGen = s.labelGen := rfl
@[simp] theorem State.updObj_slots (s : State) (id : Nat) (f : Obj → Obj) : (s.updObj id f).slots = s.slots := rfl
@[simp] theorem State.updObj_power (s : State) (id : Nat) (f : Obj → Obj) : (s.updObj id f).power = s.power := rfl
@[simp] theorem State.updObj_journal (s : State) (id : Nat) (f : Obj → Obj) : (s.updObj id f).journal = s.journal := rfl
@[simp] theorem State.updObj_loader (s : State) (id : Nat) (f : Obj → Obj) : (s.updObj id f).loader = s.loader := rfl
@[simp] theorem State.updObj_tables_counter (s : State) (id : Nat) (f : Obj → Obj) : (s.updObj id f).tables.counter = s.tables.counter := rfl
@[simp] theorem State.updObj_tables_albums (s : State) (id : Nat) (f : Obj → Obj) : (s.updObj id f).tables.albums = s.tables.albums := rfl

/-! ## setAlbum -/

@[simp] theorem State.setAlbum_pending (s : State) (a : Nat) (v : Option Album) : (s.setAlbum a v).pending = s.pending := rfl
@[simp] theorem State.setAlbum_now (s : State) (a : Nat) (v : Option Album) : (s.setAlbum a v).now = s.now := rfl
@[simp] theorem State.setAlbum_unfinished (s : State) (a : Nat) (v : Option Album) : (s.setAlbum a v).unfinished = s.unfinished := rfl
@[simp] theorem State.setAlbum_choices (s : State) (a : Nat) (v : Option Album) : (s.setAlbum a v).choices = s.choices := rfl
@[simp] theorem State.setAlbum_link (s : State) (a : Nat) (v : Option Album) : (s.setAlbum a v).link = s.link := rfl
@[simp] theorem State.setAlbum_index (s : State) (a : Nat) (v : Option Album) : (s.setAlbum a v).index = s.index := rfl
@[simp] theorem State.setAlbum_ingest (s : State) (a : Nat) (v : Option Album) : (s.setAlbum a v).ingest = s.ingest := rfl
@[simp] theorem State.setAlbum_buf (s : State) (a : Nat) (v : Option Album) : (s.setAlbum a v).buf = s.buf := rfl
@[simp] theorem State.setAlbum_store (s : State) (a : Nat) (v : Option Album) : (s.setAlbum a v).store = s.store := rfl
@[simp] theorem State.setAlbum_bays (s : State) (a : Nat) (v : Option Album) : (s.setAlbum a v).bays = s.bays := rfl
@[simp] theorem State.setAlbum_labelGen (s : State) (a : Nat) (v : Option Album) : (s.setAlbum a v).labelGen = s.labelGen := rfl
@[simp] theorem State.setAlbum_slots (s : State) (a : Nat) (v : Option Album) : (s.setAlbum a v).slots = s.slots := rfl
@[simp] theorem State.setAlbum_power (s : State) (a : Nat) (v : Option Album) : (s.setAlbum a v).power = s.power := rfl
@[simp] theorem State.setAlbum_journal (s : State) (a : Nat) (v : Option Album) : (s.setAlbum a v).journal = s.journal := rfl
@[simp] theorem State.setAlbum_loader (s : State) (a : Nat) (v : Option Album) : (s.setAlbum a v).loader = s.loader := rfl
@[simp] theorem State.setAlbum_tables_objs (s : State) (a : Nat) (v : Option Album) : (s.setAlbum a v).tables.objs = s.tables.objs := rfl
@[simp] theorem State.setAlbum_tables_counter (s : State) (a : Nat) (v : Option Album) : (s.setAlbum a v).tables.counter = s.tables.counter := rfl

/-! ## updRun -/

@[simp] theorem State.updRun_pending (s : State) (id : Nat) (f : Run → Run) : (s.updRun id f).pending = s.pending := rfl
@[simp] theorem State.updRun_now (s : State) (id : Nat) (f : Run → Run) : (s.updRun id f).now = s.now := rfl
@[simp] theorem State.updRun_unfinished (s : State) (id : Nat) (f : Run → Run) : (s.updRun id f).unfinished = s.unfinished := rfl
@[simp] theorem State.updRun_choices (s : State) (id : Nat) (f : Run → Run) : (s.updRun id f).choices = s.choices := rfl
@[simp] theorem State.updRun_link (s : State) (id : Nat) (f : Run → Run) : (s.updRun id f).link = s.link := rfl
@[simp] theorem State.updRun_index (s : State) (id : Nat) (f : Run → Run) : (s.updRun id f).index = s.index := rfl
@[simp] theorem State.updRun_tables (s : State) (id : Nat) (f : Run → Run) : (s.updRun id f).tables = s.tables := rfl
@[simp] theorem State.updRun_buf (s : State) (id : Nat) (f : Run → Run) : (s.updRun id f).buf = s.buf := rfl
@[simp] theorem State.updRun_store (s : State) (id : Nat) (f : Run → Run) : (s.updRun id f).store = s.store := rfl
@[simp] theorem State.updRun_bays (s : State) (id : Nat) (f : Run → Run) : (s.updRun id f).bays = s.bays := rfl
@[simp] theorem State.updRun_labelGen (s : State) (id : Nat) (f : Run → Run) : (s.updRun id f).labelGen = s.labelGen := rfl
@[simp] theorem State.updRun_slots (s : State) (id : Nat) (f : Run → Run) : (s.updRun id f).slots = s.slots := rfl
@[simp] theorem State.updRun_power (s : State) (id : Nat) (f : Run → Run) : (s.updRun id f).power = s.power := rfl
@[simp] theorem State.updRun_journal (s : State) (id : Nat) (f : Run → Run) : (s.updRun id f).journal = s.journal := rfl
@[simp] theorem State.updRun_loader (s : State) (id : Nat) (f : Run → Run) : (s.updRun id f).loader = s.loader := rfl
@[simp] theorem State.updRun_ingest_counter (s : State) (id : Nat) (f : Run → Run) : (s.updRun id f).ingest.counter = s.ingest.counter := rfl
@[simp] theorem State.updRun_ingest_arrivals (s : State) (id : Nat) (f : Run → Run) : (s.updRun id f).ingest.arrivals = s.ingest.arrivals := rfl
@[simp] theorem State.updRun_ingest_checkWait (s : State) (id : Nat) (f : Run → Run) : (s.updRun id f).ingest.checkWait = s.ingest.checkWait := rfl
@[simp] theorem State.updRun_ingest_queue (s : State) (id : Nat) (f : Run → Run) : (s.updRun id f).ingest.queue = s.ingest.queue := rfl
@[simp] theorem State.updRun_ingest_lanes (s : State) (id : Nat) (f : Run → Run) : (s.updRun id f).ingest.lanes = s.ingest.lanes := rfl

/-! ## setArrival -/

@[simp] theorem State.setArrival_pending (s : State) (i : Fin 32) (r : ArrivalRec) : (s.setArrival i r).pending = s.pending := rfl
@[simp] theorem State.setArrival_now (s : State) (i : Fin 32) (r : ArrivalRec) : (s.setArrival i r).now = s.now := rfl
@[simp] theorem State.setArrival_unfinished (s : State) (i : Fin 32) (r : ArrivalRec) : (s.setArrival i r).unfinished = s.unfinished := rfl
@[simp] theorem State.setArrival_choices (s : State) (i : Fin 32) (r : ArrivalRec) : (s.setArrival i r).choices = s.choices := rfl
@[simp] theorem State.setArrival_link (s : State) (i : Fin 32) (r : ArrivalRec) : (s.setArrival i r).link = s.link := rfl
@[simp] theorem State.setArrival_index (s : State) (i : Fin 32) (r : ArrivalRec) : (s.setArrival i r).index = s.index := rfl
@[simp] theorem State.setArrival_tables (s : State) (i : Fin 32) (r : ArrivalRec) : (s.setArrival i r).tables = s.tables := rfl
@[simp] theorem State.setArrival_buf (s : State) (i : Fin 32) (r : ArrivalRec) : (s.setArrival i r).buf = s.buf := rfl
@[simp] theorem State.setArrival_store (s : State) (i : Fin 32) (r : ArrivalRec) : (s.setArrival i r).store = s.store := rfl
@[simp] theorem State.setArrival_bays (s : State) (i : Fin 32) (r : ArrivalRec) : (s.setArrival i r).bays = s.bays := rfl
@[simp] theorem State.setArrival_labelGen (s : State) (i : Fin 32) (r : ArrivalRec) : (s.setArrival i r).labelGen = s.labelGen := rfl
@[simp] theorem State.setArrival_slots (s : State) (i : Fin 32) (r : ArrivalRec) : (s.setArrival i r).slots = s.slots := rfl
@[simp] theorem State.setArrival_power (s : State) (i : Fin 32) (r : ArrivalRec) : (s.setArrival i r).power = s.power := rfl
@[simp] theorem State.setArrival_journal (s : State) (i : Fin 32) (r : ArrivalRec) : (s.setArrival i r).journal = s.journal := rfl
@[simp] theorem State.setArrival_loader (s : State) (i : Fin 32) (r : ArrivalRec) : (s.setArrival i r).loader = s.loader := rfl
@[simp] theorem State.setArrival_ingest_runs (s : State) (i : Fin 32) (r : ArrivalRec) : (s.setArrival i r).ingest.runs = s.ingest.runs := rfl
@[simp] theorem State.setArrival_ingest_counter (s : State) (i : Fin 32) (r : ArrivalRec) : (s.setArrival i r).ingest.counter = s.ingest.counter := rfl
@[simp] theorem State.setArrival_ingest_checkWait (s : State) (i : Fin 32) (r : ArrivalRec) : (s.setArrival i r).ingest.checkWait = s.ingest.checkWait := rfl
@[simp] theorem State.setArrival_ingest_queue (s : State) (i : Fin 32) (r : ArrivalRec) : (s.setArrival i r).ingest.queue = s.ingest.queue := rfl
@[simp] theorem State.setArrival_ingest_lanes (s : State) (i : Fin 32) (r : ArrivalRec) : (s.setArrival i r).ingest.lanes = s.ingest.lanes := rfl

/-! ## updCopy -/

@[simp] theorem State.updCopy_pending (s : State) (id : Nat) (f : Copy → Copy) : (s.updCopy id f).pending = s.pending := rfl
@[simp] theorem State.updCopy_now (s : State) (id : Nat) (f : Copy → Copy) : (s.updCopy id f).now = s.now := rfl
@[simp] theorem State.updCopy_unfinished (s : State) (id : Nat) (f : Copy → Copy) : (s.updCopy id f).unfinished = s.unfinished := rfl
@[simp] theorem State.updCopy_choices (s : State) (id : Nat) (f : Copy → Copy) : (s.updCopy id f).choices = s.choices := rfl
@[simp] theorem State.updCopy_link (s : State) (id : Nat) (f : Copy → Copy) : (s.updCopy id f).link = s.link := rfl
@[simp] theorem State.updCopy_index (s : State) (id : Nat) (f : Copy → Copy) : (s.updCopy id f).index = s.index := rfl
@[simp] theorem State.updCopy_tables (s : State) (id : Nat) (f : Copy → Copy) : (s.updCopy id f).tables = s.tables := rfl
@[simp] theorem State.updCopy_ingest (s : State) (id : Nat) (f : Copy → Copy) : (s.updCopy id f).ingest = s.ingest := rfl
@[simp] theorem State.updCopy_store (s : State) (id : Nat) (f : Copy → Copy) : (s.updCopy id f).store = s.store := rfl
@[simp] theorem State.updCopy_bays (s : State) (id : Nat) (f : Copy → Copy) : (s.updCopy id f).bays = s.bays := rfl
@[simp] theorem State.updCopy_labelGen (s : State) (id : Nat) (f : Copy → Copy) : (s.updCopy id f).labelGen = s.labelGen := rfl
@[simp] theorem State.updCopy_slots (s : State) (id : Nat) (f : Copy → Copy) : (s.updCopy id f).slots = s.slots := rfl
@[simp] theorem State.updCopy_power (s : State) (id : Nat) (f : Copy → Copy) : (s.updCopy id f).power = s.power := rfl
@[simp] theorem State.updCopy_journal (s : State) (id : Nat) (f : Copy → Copy) : (s.updCopy id f).journal = s.journal := rfl
@[simp] theorem State.updCopy_loader (s : State) (id : Nat) (f : Copy → Copy) : (s.updCopy id f).loader = s.loader := rfl
@[simp] theorem State.updCopy_buf_pool (s : State) (id : Nat) (f : Copy → Copy) : (s.updCopy id f).buf.pool = s.buf.pool := rfl
@[simp] theorem State.updCopy_buf_reserve (s : State) (id : Nat) (f : Copy → Copy) : (s.updCopy id f).buf.reserve = s.buf.reserve := rfl
@[simp] theorem State.updCopy_buf_parityWait (s : State) (id : Nat) (f : Copy → Copy) : (s.updCopy id f).buf.parityWait = s.buf.parityWait := rfl
@[simp] theorem State.updCopy_buf_holds (s : State) (id : Nat) (f : Copy → Copy) : (s.updCopy id f).buf.holds = s.buf.holds := rfl
@[simp] theorem State.updCopy_buf_detached (s : State) (id : Nat) (f : Copy → Copy) : (s.updCopy id f).buf.detached = s.buf.detached := rfl
@[simp] theorem State.updCopy_buf_staged (s : State) (id : Nat) (f : Copy → Copy) : (s.updCopy id f).buf.staged = s.buf.staged := rfl
@[simp] theorem State.updCopy_buf_nextCopy (s : State) (id : Nat) (f : Copy → Copy) : (s.updCopy id f).buf.nextCopy = s.buf.nextCopy := rfl
@[simp] theorem State.updCopy_buf_fillWait (s : State) (id : Nat) (f : Copy → Copy) : (s.updCopy id f).buf.fillWait = s.buf.fillWait := rfl
@[simp] theorem State.updCopy_buf_verifyWait (s : State) (id : Nat) (f : Copy → Copy) : (s.updCopy id f).buf.verifyWait = s.buf.verifyWait := rfl
@[simp] theorem State.updCopy_buf_stagingMem (s : State) (id : Nat) (f : Copy → Copy) : (s.updCopy id f).buf.stagingMem = s.buf.stagingMem := rfl
@[simp] theorem State.updCopy_buf_cacheMem (s : State) (id : Nat) (f : Copy → Copy) : (s.updCopy id f).buf.cacheMem = s.buf.cacheMem := rfl
@[simp] theorem State.updCopy_buf_placeMem (s : State) (id : Nat) (f : Copy → Copy) : (s.updCopy id f).buf.placeMem = s.buf.placeMem := rfl
@[simp] theorem State.updCopy_buf_blocks (s : State) (id : Nat) (f : Copy → Copy) : (s.updCopy id f).buf.blocks = s.buf.blocks := rfl
@[simp] theorem State.updCopy_buf_appendWait (s : State) (id : Nat) (f : Copy → Copy) : (s.updCopy id f).buf.appendWait = s.buf.appendWait := rfl
@[simp] theorem State.updCopy_buf_resuming (s : State) (id : Nat) (f : Copy → Copy) : (s.updCopy id f).buf.resuming = s.buf.resuming := rfl
@[simp] theorem State.updCopy_buf_port (s : State) (id : Nat) (f : Copy → Copy) : (s.updCopy id f).buf.port = s.buf.port := rfl

/-! ## touchCopy -/

@[simp] theorem State.touchCopy_pending (s : State) (id : Nat) : (s.touchCopy id).pending = s.pending := rfl
@[simp] theorem State.touchCopy_now (s : State) (id : Nat) : (s.touchCopy id).now = s.now := rfl
@[simp] theorem State.touchCopy_unfinished (s : State) (id : Nat) : (s.touchCopy id).unfinished = s.unfinished := rfl
@[simp] theorem State.touchCopy_choices (s : State) (id : Nat) : (s.touchCopy id).choices = s.choices := rfl
@[simp] theorem State.touchCopy_link (s : State) (id : Nat) : (s.touchCopy id).link = s.link := rfl
@[simp] theorem State.touchCopy_index (s : State) (id : Nat) : (s.touchCopy id).index = s.index := rfl
@[simp] theorem State.touchCopy_tables (s : State) (id : Nat) : (s.touchCopy id).tables = s.tables := rfl
@[simp] theorem State.touchCopy_ingest (s : State) (id : Nat) : (s.touchCopy id).ingest = s.ingest := rfl
@[simp] theorem State.touchCopy_store (s : State) (id : Nat) : (s.touchCopy id).store = s.store := rfl
@[simp] theorem State.touchCopy_bays (s : State) (id : Nat) : (s.touchCopy id).bays = s.bays := rfl
@[simp] theorem State.touchCopy_labelGen (s : State) (id : Nat) : (s.touchCopy id).labelGen = s.labelGen := rfl
@[simp] theorem State.touchCopy_slots (s : State) (id : Nat) : (s.touchCopy id).slots = s.slots := rfl
@[simp] theorem State.touchCopy_power (s : State) (id : Nat) : (s.touchCopy id).power = s.power := rfl
@[simp] theorem State.touchCopy_journal (s : State) (id : Nat) : (s.touchCopy id).journal = s.journal := rfl
@[simp] theorem State.touchCopy_loader (s : State) (id : Nat) : (s.touchCopy id).loader = s.loader := rfl
@[simp] theorem State.touchCopy_buf_pool (s : State) (id : Nat) : (s.touchCopy id).buf.pool = s.buf.pool := rfl
@[simp] theorem State.touchCopy_buf_reserve (s : State) (id : Nat) : (s.touchCopy id).buf.reserve = s.buf.reserve := rfl
@[simp] theorem State.touchCopy_buf_parityWait (s : State) (id : Nat) : (s.touchCopy id).buf.parityWait = s.buf.parityWait := rfl
@[simp] theorem State.touchCopy_buf_holds (s : State) (id : Nat) : (s.touchCopy id).buf.holds = s.buf.holds := rfl
@[simp] theorem State.touchCopy_buf_detached (s : State) (id : Nat) : (s.touchCopy id).buf.detached = s.buf.detached := rfl
@[simp] theorem State.touchCopy_buf_staged (s : State) (id : Nat) : (s.touchCopy id).buf.staged = s.buf.staged := rfl
@[simp] theorem State.touchCopy_buf_nextCopy (s : State) (id : Nat) : (s.touchCopy id).buf.nextCopy = s.buf.nextCopy := rfl
@[simp] theorem State.touchCopy_buf_fillWait (s : State) (id : Nat) : (s.touchCopy id).buf.fillWait = s.buf.fillWait := rfl
@[simp] theorem State.touchCopy_buf_verifyWait (s : State) (id : Nat) : (s.touchCopy id).buf.verifyWait = s.buf.verifyWait := rfl
@[simp] theorem State.touchCopy_buf_stagingMem (s : State) (id : Nat) : (s.touchCopy id).buf.stagingMem = s.buf.stagingMem := rfl
@[simp] theorem State.touchCopy_buf_cacheMem (s : State) (id : Nat) : (s.touchCopy id).buf.cacheMem = s.buf.cacheMem := rfl
@[simp] theorem State.touchCopy_buf_placeMem (s : State) (id : Nat) : (s.touchCopy id).buf.placeMem = s.buf.placeMem := rfl
@[simp] theorem State.touchCopy_buf_blocks (s : State) (id : Nat) : (s.touchCopy id).buf.blocks = s.buf.blocks := rfl
@[simp] theorem State.touchCopy_buf_appendWait (s : State) (id : Nat) : (s.touchCopy id).buf.appendWait = s.buf.appendWait := rfl
@[simp] theorem State.touchCopy_buf_resuming (s : State) (id : Nat) : (s.touchCopy id).buf.resuming = s.buf.resuming := rfl
@[simp] theorem State.touchCopy_buf_port (s : State) (id : Nat) : (s.touchCopy id).buf.port = s.buf.port := rfl

/-! ## updStripe -/

@[simp] theorem State.updStripe_pending (s : State) (n : Nat) (f : Stripe → Stripe) : (s.updStripe n f).pending = s.pending := rfl
@[simp] theorem State.updStripe_now (s : State) (n : Nat) (f : Stripe → Stripe) : (s.updStripe n f).now = s.now := rfl
@[simp] theorem State.updStripe_unfinished (s : State) (n : Nat) (f : Stripe → Stripe) : (s.updStripe n f).unfinished = s.unfinished := rfl
@[simp] theorem State.updStripe_choices (s : State) (n : Nat) (f : Stripe → Stripe) : (s.updStripe n f).choices = s.choices := rfl
@[simp] theorem State.updStripe_link (s : State) (n : Nat) (f : Stripe → Stripe) : (s.updStripe n f).link = s.link := rfl
@[simp] theorem State.updStripe_index (s : State) (n : Nat) (f : Stripe → Stripe) : (s.updStripe n f).index = s.index := rfl
@[simp] theorem State.updStripe_tables (s : State) (n : Nat) (f : Stripe → Stripe) : (s.updStripe n f).tables = s.tables := rfl
@[simp] theorem State.updStripe_ingest (s : State) (n : Nat) (f : Stripe → Stripe) : (s.updStripe n f).ingest = s.ingest := rfl
@[simp] theorem State.updStripe_buf (s : State) (n : Nat) (f : Stripe → Stripe) : (s.updStripe n f).buf = s.buf := rfl
@[simp] theorem State.updStripe_bays (s : State) (n : Nat) (f : Stripe → Stripe) : (s.updStripe n f).bays = s.bays := rfl
@[simp] theorem State.updStripe_labelGen (s : State) (n : Nat) (f : Stripe → Stripe) : (s.updStripe n f).labelGen = s.labelGen := rfl
@[simp] theorem State.updStripe_slots (s : State) (n : Nat) (f : Stripe → Stripe) : (s.updStripe n f).slots = s.slots := rfl
@[simp] theorem State.updStripe_power (s : State) (n : Nat) (f : Stripe → Stripe) : (s.updStripe n f).power = s.power := rfl
@[simp] theorem State.updStripe_journal (s : State) (n : Nat) (f : Stripe → Stripe) : (s.updStripe n f).journal = s.journal := rfl
@[simp] theorem State.updStripe_loader (s : State) (n : Nat) (f : Stripe → Stripe) : (s.updStripe n f).loader = s.loader := rfl
@[simp] theorem State.updStripe_store_members (s : State) (n : Nat) (f : Stripe → Stripe) : (s.updStripe n f).store.members = s.store.members := rfl
@[simp] theorem State.updStripe_store_cond (s : State) (n : Nat) (f : Stripe → Stripe) : (s.updStripe n f).store.cond = s.store.cond := rfl
@[simp] theorem State.updStripe_store_stripeCount (s : State) (n : Nat) (f : Stripe → Stripe) : (s.updStripe n f).store.stripeCount = s.store.stripeCount := rfl
@[simp] theorem State.updStripe_store_pointer (s : State) (n : Nat) (f : Stripe → Stripe) : (s.updStripe n f).store.pointer = s.store.pointer := rfl
@[simp] theorem State.updStripe_store_closeTimer (s : State) (n : Nat) (f : Stripe → Stripe) : (s.updStripe n f).store.closeTimer = s.store.closeTimer := rfl
@[simp] theorem State.updStripe_store_writing (s : State) (n : Nat) (f : Stripe → Stripe) : (s.updStripe n f).store.writing = s.store.writing := rfl
@[simp] theorem State.updStripe_store_parityList (s : State) (n : Nat) (f : Stripe → Stripe) : (s.updStripe n f).store.parityList = s.store.parityList := rfl
@[simp] theorem State.updStripe_store_reconList (s : State) (n : Nat) (f : Stripe → Stripe) : (s.updStripe n f).store.reconList = s.store.reconList := rfl
@[simp] theorem State.updStripe_store_xorBusy (s : State) (n : Nat) (f : Stripe → Stripe) : (s.updStripe n f).store.xorBusy = s.store.xorBusy := rfl
@[simp] theorem State.updStripe_store_reconLast (s : State) (n : Nat) (f : Stripe → Stripe) : (s.updStripe n f).store.reconLast = s.store.reconLast := rfl
@[simp] theorem State.updStripe_store_jobs (s : State) (n : Nat) (f : Stripe → Stripe) : (s.updStripe n f).store.jobs = s.store.jobs := rfl
@[simp] theorem State.updStripe_store_nextJob (s : State) (n : Nat) (f : Stripe → Stripe) : (s.updStripe n f).store.nextJob = s.store.nextJob := rfl
@[simp] theorem State.updStripe_store_placeWait (s : State) (n : Nat) (f : Stripe → Stripe) : (s.updStripe n f).store.placeWait = s.store.placeWait := rfl

/-! ## dropStripe -/

@[simp] theorem State.dropStripe_pending (s : State) (n : Nat) : (s.dropStripe n).pending = s.pending := rfl
@[simp] theorem State.dropStripe_now (s : State) (n : Nat) : (s.dropStripe n).now = s.now := rfl
@[simp] theorem State.dropStripe_unfinished (s : State) (n : Nat) : (s.dropStripe n).unfinished = s.unfinished := rfl
@[simp] theorem State.dropStripe_choices (s : State) (n : Nat) : (s.dropStripe n).choices = s.choices := rfl
@[simp] theorem State.dropStripe_link (s : State) (n : Nat) : (s.dropStripe n).link = s.link := rfl
@[simp] theorem State.dropStripe_index (s : State) (n : Nat) : (s.dropStripe n).index = s.index := rfl
@[simp] theorem State.dropStripe_tables (s : State) (n : Nat) : (s.dropStripe n).tables = s.tables := rfl
@[simp] theorem State.dropStripe_ingest (s : State) (n : Nat) : (s.dropStripe n).ingest = s.ingest := rfl
@[simp] theorem State.dropStripe_buf (s : State) (n : Nat) : (s.dropStripe n).buf = s.buf := rfl
@[simp] theorem State.dropStripe_bays (s : State) (n : Nat) : (s.dropStripe n).bays = s.bays := rfl
@[simp] theorem State.dropStripe_labelGen (s : State) (n : Nat) : (s.dropStripe n).labelGen = s.labelGen := rfl
@[simp] theorem State.dropStripe_slots (s : State) (n : Nat) : (s.dropStripe n).slots = s.slots := rfl
@[simp] theorem State.dropStripe_power (s : State) (n : Nat) : (s.dropStripe n).power = s.power := rfl
@[simp] theorem State.dropStripe_journal (s : State) (n : Nat) : (s.dropStripe n).journal = s.journal := rfl
@[simp] theorem State.dropStripe_loader (s : State) (n : Nat) : (s.dropStripe n).loader = s.loader := rfl
@[simp] theorem State.dropStripe_store_members (s : State) (n : Nat) : (s.dropStripe n).store.members = s.store.members := rfl
@[simp] theorem State.dropStripe_store_cond (s : State) (n : Nat) : (s.dropStripe n).store.cond = s.store.cond := rfl
@[simp] theorem State.dropStripe_store_stripeCount (s : State) (n : Nat) : (s.dropStripe n).store.stripeCount = s.store.stripeCount := rfl
@[simp] theorem State.dropStripe_store_pointer (s : State) (n : Nat) : (s.dropStripe n).store.pointer = s.store.pointer := rfl
@[simp] theorem State.dropStripe_store_closeTimer (s : State) (n : Nat) : (s.dropStripe n).store.closeTimer = s.store.closeTimer := rfl
@[simp] theorem State.dropStripe_store_writing (s : State) (n : Nat) : (s.dropStripe n).store.writing = s.store.writing := rfl
@[simp] theorem State.dropStripe_store_parityList (s : State) (n : Nat) : (s.dropStripe n).store.parityList = s.store.parityList := rfl
@[simp] theorem State.dropStripe_store_reconList (s : State) (n : Nat) : (s.dropStripe n).store.reconList = s.store.reconList := rfl
@[simp] theorem State.dropStripe_store_xorBusy (s : State) (n : Nat) : (s.dropStripe n).store.xorBusy = s.store.xorBusy := rfl
@[simp] theorem State.dropStripe_store_reconLast (s : State) (n : Nat) : (s.dropStripe n).store.reconLast = s.store.reconLast := rfl
@[simp] theorem State.dropStripe_store_jobs (s : State) (n : Nat) : (s.dropStripe n).store.jobs = s.store.jobs := rfl
@[simp] theorem State.dropStripe_store_nextJob (s : State) (n : Nat) : (s.dropStripe n).store.nextJob = s.store.nextJob := rfl
@[simp] theorem State.dropStripe_store_placeWait (s : State) (n : Nat) : (s.dropStripe n).store.placeWait = s.store.placeWait := rfl

/-! ## updJob -/

@[simp] theorem State.updJob_pending (s : State) (id : Nat) (f : Job → Job) : (s.updJob id f).pending = s.pending := rfl
@[simp] theorem State.updJob_now (s : State) (id : Nat) (f : Job → Job) : (s.updJob id f).now = s.now := rfl
@[simp] theorem State.updJob_unfinished (s : State) (id : Nat) (f : Job → Job) : (s.updJob id f).unfinished = s.unfinished := rfl
@[simp] theorem State.updJob_choices (s : State) (id : Nat) (f : Job → Job) : (s.updJob id f).choices = s.choices := rfl
@[simp] theorem State.updJob_link (s : State) (id : Nat) (f : Job → Job) : (s.updJob id f).link = s.link := rfl
@[simp] theorem State.updJob_index (s : State) (id : Nat) (f : Job → Job) : (s.updJob id f).index = s.index := rfl
@[simp] theorem State.updJob_tables (s : State) (id : Nat) (f : Job → Job) : (s.updJob id f).tables = s.tables := rfl
@[simp] theorem State.updJob_ingest (s : State) (id : Nat) (f : Job → Job) : (s.updJob id f).ingest = s.ingest := rfl
@[simp] theorem State.updJob_buf (s : State) (id : Nat) (f : Job → Job) : (s.updJob id f).buf = s.buf := rfl
@[simp] theorem State.updJob_bays (s : State) (id : Nat) (f : Job → Job) : (s.updJob id f).bays = s.bays := rfl
@[simp] theorem State.updJob_labelGen (s : State) (id : Nat) (f : Job → Job) : (s.updJob id f).labelGen = s.labelGen := rfl
@[simp] theorem State.updJob_slots (s : State) (id : Nat) (f : Job → Job) : (s.updJob id f).slots = s.slots := rfl
@[simp] theorem State.updJob_power (s : State) (id : Nat) (f : Job → Job) : (s.updJob id f).power = s.power := rfl
@[simp] theorem State.updJob_journal (s : State) (id : Nat) (f : Job → Job) : (s.updJob id f).journal = s.journal := rfl
@[simp] theorem State.updJob_loader (s : State) (id : Nat) (f : Job → Job) : (s.updJob id f).loader = s.loader := rfl
@[simp] theorem State.updJob_store_members (s : State) (id : Nat) (f : Job → Job) : (s.updJob id f).store.members = s.store.members := rfl
@[simp] theorem State.updJob_store_cond (s : State) (id : Nat) (f : Job → Job) : (s.updJob id f).store.cond = s.store.cond := rfl
@[simp] theorem State.updJob_store_stripeCount (s : State) (id : Nat) (f : Job → Job) : (s.updJob id f).store.stripeCount = s.store.stripeCount := rfl
@[simp] theorem State.updJob_store_table (s : State) (id : Nat) (f : Job → Job) : (s.updJob id f).store.table = s.store.table := rfl
@[simp] theorem State.updJob_store_pointer (s : State) (id : Nat) (f : Job → Job) : (s.updJob id f).store.pointer = s.store.pointer := rfl
@[simp] theorem State.updJob_store_closeTimer (s : State) (id : Nat) (f : Job → Job) : (s.updJob id f).store.closeTimer = s.store.closeTimer := rfl
@[simp] theorem State.updJob_store_writing (s : State) (id : Nat) (f : Job → Job) : (s.updJob id f).store.writing = s.store.writing := rfl
@[simp] theorem State.updJob_store_parityList (s : State) (id : Nat) (f : Job → Job) : (s.updJob id f).store.parityList = s.store.parityList := rfl
@[simp] theorem State.updJob_store_reconList (s : State) (id : Nat) (f : Job → Job) : (s.updJob id f).store.reconList = s.store.reconList := rfl
@[simp] theorem State.updJob_store_xorBusy (s : State) (id : Nat) (f : Job → Job) : (s.updJob id f).store.xorBusy = s.store.xorBusy := rfl
@[simp] theorem State.updJob_store_reconLast (s : State) (id : Nat) (f : Job → Job) : (s.updJob id f).store.reconLast = s.store.reconLast := rfl
@[simp] theorem State.updJob_store_nextJob (s : State) (id : Nat) (f : Job → Job) : (s.updJob id f).store.nextJob = s.store.nextJob := rfl
@[simp] theorem State.updJob_store_placeWait (s : State) (id : Nat) (f : Job → Job) : (s.updJob id f).store.placeWait = s.store.placeWait := rfl

/-! ## updMember -/

@[simp] theorem State.updMember_pending (s : State) (m : Nat) (f : Member → Member) : (s.updMember m f).pending = s.pending := rfl
@[simp] theorem State.updMember_now (s : State) (m : Nat) (f : Member → Member) : (s.updMember m f).now = s.now := rfl
@[simp] theorem State.updMember_unfinished (s : State) (m : Nat) (f : Member → Member) : (s.updMember m f).unfinished = s.unfinished := rfl
@[simp] theorem State.updMember_choices (s : State) (m : Nat) (f : Member → Member) : (s.updMember m f).choices = s.choices := rfl
@[simp] theorem State.updMember_link (s : State) (m : Nat) (f : Member → Member) : (s.updMember m f).link = s.link := rfl
@[simp] theorem State.updMember_index (s : State) (m : Nat) (f : Member → Member) : (s.updMember m f).index = s.index := rfl
@[simp] theorem State.updMember_tables (s : State) (m : Nat) (f : Member → Member) : (s.updMember m f).tables = s.tables := rfl
@[simp] theorem State.updMember_ingest (s : State) (m : Nat) (f : Member → Member) : (s.updMember m f).ingest = s.ingest := rfl
@[simp] theorem State.updMember_buf (s : State) (m : Nat) (f : Member → Member) : (s.updMember m f).buf = s.buf := rfl
@[simp] theorem State.updMember_bays (s : State) (m : Nat) (f : Member → Member) : (s.updMember m f).bays = s.bays := rfl
@[simp] theorem State.updMember_labelGen (s : State) (m : Nat) (f : Member → Member) : (s.updMember m f).labelGen = s.labelGen := rfl
@[simp] theorem State.updMember_slots (s : State) (m : Nat) (f : Member → Member) : (s.updMember m f).slots = s.slots := rfl
@[simp] theorem State.updMember_power (s : State) (m : Nat) (f : Member → Member) : (s.updMember m f).power = s.power := rfl
@[simp] theorem State.updMember_journal (s : State) (m : Nat) (f : Member → Member) : (s.updMember m f).journal = s.journal := rfl
@[simp] theorem State.updMember_loader (s : State) (m : Nat) (f : Member → Member) : (s.updMember m f).loader = s.loader := rfl
@[simp] theorem State.updMember_store_cond (s : State) (m : Nat) (f : Member → Member) : (s.updMember m f).store.cond = s.store.cond := rfl
@[simp] theorem State.updMember_store_stripeCount (s : State) (m : Nat) (f : Member → Member) : (s.updMember m f).store.stripeCount = s.store.stripeCount := rfl
@[simp] theorem State.updMember_store_table (s : State) (m : Nat) (f : Member → Member) : (s.updMember m f).store.table = s.store.table := rfl
@[simp] theorem State.updMember_store_pointer (s : State) (m : Nat) (f : Member → Member) : (s.updMember m f).store.pointer = s.store.pointer := rfl
@[simp] theorem State.updMember_store_closeTimer (s : State) (m : Nat) (f : Member → Member) : (s.updMember m f).store.closeTimer = s.store.closeTimer := rfl
@[simp] theorem State.updMember_store_writing (s : State) (m : Nat) (f : Member → Member) : (s.updMember m f).store.writing = s.store.writing := rfl
@[simp] theorem State.updMember_store_parityList (s : State) (m : Nat) (f : Member → Member) : (s.updMember m f).store.parityList = s.store.parityList := rfl
@[simp] theorem State.updMember_store_reconList (s : State) (m : Nat) (f : Member → Member) : (s.updMember m f).store.reconList = s.store.reconList := rfl
@[simp] theorem State.updMember_store_xorBusy (s : State) (m : Nat) (f : Member → Member) : (s.updMember m f).store.xorBusy = s.store.xorBusy := rfl
@[simp] theorem State.updMember_store_reconLast (s : State) (m : Nat) (f : Member → Member) : (s.updMember m f).store.reconLast = s.store.reconLast := rfl
@[simp] theorem State.updMember_store_jobs (s : State) (m : Nat) (f : Member → Member) : (s.updMember m f).store.jobs = s.store.jobs := rfl
@[simp] theorem State.updMember_store_nextJob (s : State) (m : Nat) (f : Member → Member) : (s.updMember m f).store.nextJob = s.store.nextJob := rfl
@[simp] theorem State.updMember_store_placeWait (s : State) (m : Nat) (f : Member → Member) : (s.updMember m f).store.placeWait = s.store.placeWait := rfl

/-! ## updBay -/

@[simp] theorem State.updBay_pending (s : State) (b : BayNo) (f : Bay → Bay) : (s.updBay b f).pending = s.pending := rfl
@[simp] theorem State.updBay_now (s : State) (b : BayNo) (f : Bay → Bay) : (s.updBay b f).now = s.now := rfl
@[simp] theorem State.updBay_unfinished (s : State) (b : BayNo) (f : Bay → Bay) : (s.updBay b f).unfinished = s.unfinished := rfl
@[simp] theorem State.updBay_choices (s : State) (b : BayNo) (f : Bay → Bay) : (s.updBay b f).choices = s.choices := rfl
@[simp] theorem State.updBay_link (s : State) (b : BayNo) (f : Bay → Bay) : (s.updBay b f).link = s.link := rfl
@[simp] theorem State.updBay_index (s : State) (b : BayNo) (f : Bay → Bay) : (s.updBay b f).index = s.index := rfl
@[simp] theorem State.updBay_tables (s : State) (b : BayNo) (f : Bay → Bay) : (s.updBay b f).tables = s.tables := rfl
@[simp] theorem State.updBay_ingest (s : State) (b : BayNo) (f : Bay → Bay) : (s.updBay b f).ingest = s.ingest := rfl
@[simp] theorem State.updBay_buf (s : State) (b : BayNo) (f : Bay → Bay) : (s.updBay b f).buf = s.buf := rfl
@[simp] theorem State.updBay_store (s : State) (b : BayNo) (f : Bay → Bay) : (s.updBay b f).store = s.store := rfl
@[simp] theorem State.updBay_labelGen (s : State) (b : BayNo) (f : Bay → Bay) : (s.updBay b f).labelGen = s.labelGen := rfl
@[simp] theorem State.updBay_slots (s : State) (b : BayNo) (f : Bay → Bay) : (s.updBay b f).slots = s.slots := rfl
@[simp] theorem State.updBay_power (s : State) (b : BayNo) (f : Bay → Bay) : (s.updBay b f).power = s.power := rfl
@[simp] theorem State.updBay_journal (s : State) (b : BayNo) (f : Bay → Bay) : (s.updBay b f).journal = s.journal := rfl
@[simp] theorem State.updBay_loader (s : State) (b : BayNo) (f : Bay → Bay) : (s.updBay b f).loader = s.loader := rfl

/-! ## updSlot -/

@[simp] theorem State.updSlot_pending (s : State) (i : SlotNo) (f : Slot → Slot) : (s.updSlot i f).pending = s.pending := rfl
@[simp] theorem State.updSlot_now (s : State) (i : SlotNo) (f : Slot → Slot) : (s.updSlot i f).now = s.now := rfl
@[simp] theorem State.updSlot_unfinished (s : State) (i : SlotNo) (f : Slot → Slot) : (s.updSlot i f).unfinished = s.unfinished := rfl
@[simp] theorem State.updSlot_choices (s : State) (i : SlotNo) (f : Slot → Slot) : (s.updSlot i f).choices = s.choices := rfl
@[simp] theorem State.updSlot_link (s : State) (i : SlotNo) (f : Slot → Slot) : (s.updSlot i f).link = s.link := rfl
@[simp] theorem State.updSlot_index (s : State) (i : SlotNo) (f : Slot → Slot) : (s.updSlot i f).index = s.index := rfl
@[simp] theorem State.updSlot_tables (s : State) (i : SlotNo) (f : Slot → Slot) : (s.updSlot i f).tables = s.tables := rfl
@[simp] theorem State.updSlot_ingest (s : State) (i : SlotNo) (f : Slot → Slot) : (s.updSlot i f).ingest = s.ingest := rfl
@[simp] theorem State.updSlot_buf (s : State) (i : SlotNo) (f : Slot → Slot) : (s.updSlot i f).buf = s.buf := rfl
@[simp] theorem State.updSlot_store (s : State) (i : SlotNo) (f : Slot → Slot) : (s.updSlot i f).store = s.store := rfl
@[simp] theorem State.updSlot_bays (s : State) (i : SlotNo) (f : Slot → Slot) : (s.updSlot i f).bays = s.bays := rfl
@[simp] theorem State.updSlot_labelGen (s : State) (i : SlotNo) (f : Slot → Slot) : (s.updSlot i f).labelGen = s.labelGen := rfl
@[simp] theorem State.updSlot_power (s : State) (i : SlotNo) (f : Slot → Slot) : (s.updSlot i f).power = s.power := rfl
@[simp] theorem State.updSlot_journal (s : State) (i : SlotNo) (f : Slot → Slot) : (s.updSlot i f).journal = s.journal := rfl
@[simp] theorem State.updSlot_loader (s : State) (i : SlotNo) (f : Slot → Slot) : (s.updSlot i f).loader = s.loader := rfl

/-! ## atTime -/

@[simp] theorem State.atTime_pending (s : State) (t : Nat) : (s.atTime t).pending = s.pending := rfl
@[simp] theorem State.atTime_unfinished (s : State) (t : Nat) : (s.atTime t).unfinished = s.unfinished := rfl
@[simp] theorem State.atTime_choices (s : State) (t : Nat) : (s.atTime t).choices = s.choices := rfl
@[simp] theorem State.atTime_link (s : State) (t : Nat) : (s.atTime t).link = s.link := rfl
@[simp] theorem State.atTime_index (s : State) (t : Nat) : (s.atTime t).index = s.index := rfl
@[simp] theorem State.atTime_tables (s : State) (t : Nat) : (s.atTime t).tables = s.tables := rfl
@[simp] theorem State.atTime_ingest (s : State) (t : Nat) : (s.atTime t).ingest = s.ingest := rfl
@[simp] theorem State.atTime_buf (s : State) (t : Nat) : (s.atTime t).buf = s.buf := rfl
@[simp] theorem State.atTime_store (s : State) (t : Nat) : (s.atTime t).store = s.store := rfl
@[simp] theorem State.atTime_bays (s : State) (t : Nat) : (s.atTime t).bays = s.bays := rfl
@[simp] theorem State.atTime_labelGen (s : State) (t : Nat) : (s.atTime t).labelGen = s.labelGen := rfl
@[simp] theorem State.atTime_slots (s : State) (t : Nat) : (s.atTime t).slots = s.slots := rfl
@[simp] theorem State.atTime_power (s : State) (t : Nat) : (s.atTime t).power = s.power := rfl
@[simp] theorem State.atTime_journal (s : State) (t : Nat) : (s.atTime t).journal = s.journal := rfl
@[simp] theorem State.atTime_loader (s : State) (t : Nat) : (s.atTime t).loader = s.loader := rfl

/-! ## setPages -/

@[simp] theorem State.setPages_pending (s : State) (pages : List Nat) (c : PageCond) : (s.setPages pages c).pending = s.pending := rfl
@[simp] theorem State.setPages_now (s : State) (pages : List Nat) (c : PageCond) : (s.setPages pages c).now = s.now := rfl
@[simp] theorem State.setPages_unfinished (s : State) (pages : List Nat) (c : PageCond) : (s.setPages pages c).unfinished = s.unfinished := rfl
@[simp] theorem State.setPages_choices (s : State) (pages : List Nat) (c : PageCond) : (s.setPages pages c).choices = s.choices := rfl
@[simp] theorem State.setPages_link (s : State) (pages : List Nat) (c : PageCond) : (s.setPages pages c).link = s.link := rfl
@[simp] theorem State.setPages_index (s : State) (pages : List Nat) (c : PageCond) : (s.setPages pages c).index = s.index := rfl
@[simp] theorem State.setPages_tables (s : State) (pages : List Nat) (c : PageCond) : (s.setPages pages c).tables = s.tables := rfl
@[simp] theorem State.setPages_ingest (s : State) (pages : List Nat) (c : PageCond) : (s.setPages pages c).ingest = s.ingest := rfl
@[simp] theorem State.setPages_store (s : State) (pages : List Nat) (c : PageCond) : (s.setPages pages c).store = s.store := rfl
@[simp] theorem State.setPages_bays (s : State) (pages : List Nat) (c : PageCond) : (s.setPages pages c).bays = s.bays := rfl
@[simp] theorem State.setPages_labelGen (s : State) (pages : List Nat) (c : PageCond) : (s.setPages pages c).labelGen = s.labelGen := rfl
@[simp] theorem State.setPages_slots (s : State) (pages : List Nat) (c : PageCond) : (s.setPages pages c).slots = s.slots := rfl
@[simp] theorem State.setPages_power (s : State) (pages : List Nat) (c : PageCond) : (s.setPages pages c).power = s.power := rfl
@[simp] theorem State.setPages_journal (s : State) (pages : List Nat) (c : PageCond) : (s.setPages pages c).journal = s.journal := rfl
@[simp] theorem State.setPages_loader (s : State) (pages : List Nat) (c : PageCond) : (s.setPages pages c).loader = s.loader := rfl
@[simp] theorem State.setPages_buf_reserve (s : State) (pages : List Nat) (c : PageCond) : (s.setPages pages c).buf.reserve = s.buf.reserve := rfl
@[simp] theorem State.setPages_buf_parityWait (s : State) (pages : List Nat) (c : PageCond) : (s.setPages pages c).buf.parityWait = s.buf.parityWait := rfl
@[simp] theorem State.setPages_buf_holds (s : State) (pages : List Nat) (c : PageCond) : (s.setPages pages c).buf.holds = s.buf.holds := rfl
@[simp] theorem State.setPages_buf_detached (s : State) (pages : List Nat) (c : PageCond) : (s.setPages pages c).buf.detached = s.buf.detached := rfl
@[simp] theorem State.setPages_buf_staged (s : State) (pages : List Nat) (c : PageCond) : (s.setPages pages c).buf.staged = s.buf.staged := rfl
@[simp] theorem State.setPages_buf_copies (s : State) (pages : List Nat) (c : PageCond) : (s.setPages pages c).buf.copies = s.buf.copies := rfl
@[simp] theorem State.setPages_buf_nextCopy (s : State) (pages : List Nat) (c : PageCond) : (s.setPages pages c).buf.nextCopy = s.buf.nextCopy := rfl
@[simp] theorem State.setPages_buf_fillWait (s : State) (pages : List Nat) (c : PageCond) : (s.setPages pages c).buf.fillWait = s.buf.fillWait := rfl
@[simp] theorem State.setPages_buf_verifyWait (s : State) (pages : List Nat) (c : PageCond) : (s.setPages pages c).buf.verifyWait = s.buf.verifyWait := rfl
@[simp] theorem State.setPages_buf_stagingMem (s : State) (pages : List Nat) (c : PageCond) : (s.setPages pages c).buf.stagingMem = s.buf.stagingMem := rfl
@[simp] theorem State.setPages_buf_cacheMem (s : State) (pages : List Nat) (c : PageCond) : (s.setPages pages c).buf.cacheMem = s.buf.cacheMem := rfl
@[simp] theorem State.setPages_buf_placeMem (s : State) (pages : List Nat) (c : PageCond) : (s.setPages pages c).buf.placeMem = s.buf.placeMem := rfl
@[simp] theorem State.setPages_buf_blocks (s : State) (pages : List Nat) (c : PageCond) : (s.setPages pages c).buf.blocks = s.buf.blocks := rfl
@[simp] theorem State.setPages_buf_appendWait (s : State) (pages : List Nat) (c : PageCond) : (s.setPages pages c).buf.appendWait = s.buf.appendWait := rfl
@[simp] theorem State.setPages_buf_resuming (s : State) (pages : List Nat) (c : PageCond) : (s.setPages pages c).buf.resuming = s.buf.resuming := rfl
@[simp] theorem State.setPages_buf_port (s : State) (pages : List Nat) (c : PageCond) : (s.setPages pages c).buf.port = s.buf.port := rfl

/-! ## freeUp -/

@[simp] theorem State.freeUp_pending (s : State) (pages : List Nat) : (s.freeUp pages).pending = s.pending := rfl
@[simp] theorem State.freeUp_now (s : State) (pages : List Nat) : (s.freeUp pages).now = s.now := rfl
@[simp] theorem State.freeUp_unfinished (s : State) (pages : List Nat) : (s.freeUp pages).unfinished = s.unfinished := rfl
@[simp] theorem State.freeUp_choices (s : State) (pages : List Nat) : (s.freeUp pages).choices = s.choices := rfl
@[simp] theorem State.freeUp_link (s : State) (pages : List Nat) : (s.freeUp pages).link = s.link := rfl
@[simp] theorem State.freeUp_index (s : State) (pages : List Nat) : (s.freeUp pages).index = s.index := rfl
@[simp] theorem State.freeUp_tables (s : State) (pages : List Nat) : (s.freeUp pages).tables = s.tables := rfl
@[simp] theorem State.freeUp_ingest (s : State) (pages : List Nat) : (s.freeUp pages).ingest = s.ingest := rfl
@[simp] theorem State.freeUp_store (s : State) (pages : List Nat) : (s.freeUp pages).store = s.store := rfl
@[simp] theorem State.freeUp_bays (s : State) (pages : List Nat) : (s.freeUp pages).bays = s.bays := rfl
@[simp] theorem State.freeUp_labelGen (s : State) (pages : List Nat) : (s.freeUp pages).labelGen = s.labelGen := rfl
@[simp] theorem State.freeUp_slots (s : State) (pages : List Nat) : (s.freeUp pages).slots = s.slots := rfl
@[simp] theorem State.freeUp_power (s : State) (pages : List Nat) : (s.freeUp pages).power = s.power := rfl
@[simp] theorem State.freeUp_journal (s : State) (pages : List Nat) : (s.freeUp pages).journal = s.journal := rfl
@[simp] theorem State.freeUp_loader (s : State) (pages : List Nat) : (s.freeUp pages).loader = s.loader := rfl
@[simp] theorem State.freeUp_buf_reserve (s : State) (pages : List Nat) : (s.freeUp pages).buf.reserve = s.buf.reserve := rfl
@[simp] theorem State.freeUp_buf_parityWait (s : State) (pages : List Nat) : (s.freeUp pages).buf.parityWait = s.buf.parityWait := rfl
@[simp] theorem State.freeUp_buf_holds (s : State) (pages : List Nat) : (s.freeUp pages).buf.holds = s.buf.holds := rfl
@[simp] theorem State.freeUp_buf_detached (s : State) (pages : List Nat) : (s.freeUp pages).buf.detached = s.buf.detached := rfl
@[simp] theorem State.freeUp_buf_staged (s : State) (pages : List Nat) : (s.freeUp pages).buf.staged = s.buf.staged := rfl
@[simp] theorem State.freeUp_buf_copies (s : State) (pages : List Nat) : (s.freeUp pages).buf.copies = s.buf.copies := rfl
@[simp] theorem State.freeUp_buf_nextCopy (s : State) (pages : List Nat) : (s.freeUp pages).buf.nextCopy = s.buf.nextCopy := rfl
@[simp] theorem State.freeUp_buf_fillWait (s : State) (pages : List Nat) : (s.freeUp pages).buf.fillWait = s.buf.fillWait := rfl
@[simp] theorem State.freeUp_buf_verifyWait (s : State) (pages : List Nat) : (s.freeUp pages).buf.verifyWait = s.buf.verifyWait := rfl
@[simp] theorem State.freeUp_buf_stagingMem (s : State) (pages : List Nat) : (s.freeUp pages).buf.stagingMem = s.buf.stagingMem := rfl
@[simp] theorem State.freeUp_buf_cacheMem (s : State) (pages : List Nat) : (s.freeUp pages).buf.cacheMem = s.buf.cacheMem := rfl
@[simp] theorem State.freeUp_buf_placeMem (s : State) (pages : List Nat) : (s.freeUp pages).buf.placeMem = s.buf.placeMem := rfl
@[simp] theorem State.freeUp_buf_blocks (s : State) (pages : List Nat) : (s.freeUp pages).buf.blocks = s.buf.blocks := rfl
@[simp] theorem State.freeUp_buf_appendWait (s : State) (pages : List Nat) : (s.freeUp pages).buf.appendWait = s.buf.appendWait := rfl
@[simp] theorem State.freeUp_buf_resuming (s : State) (pages : List Nat) : (s.freeUp pages).buf.resuming = s.buf.resuming := rfl
@[simp] theorem State.freeUp_buf_port (s : State) (pages : List Nat) : (s.freeUp pages).buf.port = s.buf.port := rfl

/-! ## popFrame -/

@[simp] theorem State.popFrame_pending (s : State) : (s.popFrame).pending = s.pending := rfl
@[simp] theorem State.popFrame_now (s : State) : (s.popFrame).now = s.now := rfl
@[simp] theorem State.popFrame_unfinished (s : State) : (s.popFrame).unfinished = s.unfinished := rfl
@[simp] theorem State.popFrame_choices (s : State) : (s.popFrame).choices = s.choices := rfl
@[simp] theorem State.popFrame_index (s : State) : (s.popFrame).index = s.index := rfl
@[simp] theorem State.popFrame_tables (s : State) : (s.popFrame).tables = s.tables := rfl
@[simp] theorem State.popFrame_ingest (s : State) : (s.popFrame).ingest = s.ingest := rfl
@[simp] theorem State.popFrame_buf (s : State) : (s.popFrame).buf = s.buf := rfl
@[simp] theorem State.popFrame_store (s : State) : (s.popFrame).store = s.store := rfl
@[simp] theorem State.popFrame_bays (s : State) : (s.popFrame).bays = s.bays := rfl
@[simp] theorem State.popFrame_labelGen (s : State) : (s.popFrame).labelGen = s.labelGen := rfl
@[simp] theorem State.popFrame_slots (s : State) : (s.popFrame).slots = s.slots := rfl
@[simp] theorem State.popFrame_power (s : State) : (s.popFrame).power = s.power := rfl
@[simp] theorem State.popFrame_journal (s : State) : (s.popFrame).journal = s.journal := rfl
@[simp] theorem State.popFrame_loader (s : State) : (s.popFrame).loader = s.loader := rfl
@[simp] theorem State.popFrame_link_control (s : State) : (s.popFrame).link.control = s.link.control := rfl
@[simp] theorem State.popFrame_link_peers (s : State) : (s.popFrame).link.peers = s.link.peers := rfl
@[simp] theorem State.popFrame_link_tagCounter (s : State) : (s.popFrame).link.tagCounter = s.link.tagCounter := rfl
@[simp] theorem State.popFrame_link_asks (s : State) : (s.popFrame).link.asks = s.link.asks := rfl
@[simp] theorem State.popFrame_link_window (s : State) : (s.popFrame).link.window = s.link.window := rfl
@[simp] theorem State.popFrame_link_announce (s : State) : (s.popFrame).link.announce = s.link.announce := rfl
@[simp] theorem State.popFrame_link_ipId (s : State) : (s.popFrame).link.ipId = s.link.ipId := rfl
@[simp] theorem State.popFrame_link_lastSlot (s : State) : (s.popFrame).link.lastSlot = s.link.lastSlot := rfl
@[simp] theorem State.popFrame_link_tx (s : State) : (s.popFrame).link.tx = s.link.tx := rfl

/-! ## landFlight -/

@[simp] theorem State.landFlight_pending (s : State) (b : BayNo) : (s.landFlight b).pending = s.pending := rfl
@[simp] theorem State.landFlight_now (s : State) (b : BayNo) : (s.landFlight b).now = s.now := rfl
@[simp] theorem State.landFlight_unfinished (s : State) (b : BayNo) : (s.landFlight b).unfinished = s.unfinished := rfl
@[simp] theorem State.landFlight_choices (s : State) (b : BayNo) : (s.landFlight b).choices = s.choices := rfl
@[simp] theorem State.landFlight_link (s : State) (b : BayNo) : (s.landFlight b).link = s.link := rfl
@[simp] theorem State.landFlight_index (s : State) (b : BayNo) : (s.landFlight b).index = s.index := rfl
@[simp] theorem State.landFlight_tables (s : State) (b : BayNo) : (s.landFlight b).tables = s.tables := rfl
@[simp] theorem State.landFlight_ingest (s : State) (b : BayNo) : (s.landFlight b).ingest = s.ingest := rfl
@[simp] theorem State.landFlight_buf (s : State) (b : BayNo) : (s.landFlight b).buf = s.buf := rfl
@[simp] theorem State.landFlight_store (s : State) (b : BayNo) : (s.landFlight b).store = s.store := rfl
@[simp] theorem State.landFlight_labelGen (s : State) (b : BayNo) : (s.landFlight b).labelGen = s.labelGen := rfl
@[simp] theorem State.landFlight_slots (s : State) (b : BayNo) : (s.landFlight b).slots = s.slots := rfl
@[simp] theorem State.landFlight_power (s : State) (b : BayNo) : (s.landFlight b).power = s.power := rfl
@[simp] theorem State.landFlight_journal (s : State) (b : BayNo) : (s.landFlight b).journal = s.journal := rfl
@[simp] theorem State.landFlight_loader (s : State) (b : BayNo) : (s.landFlight b).loader = s.loader := rfl

/-! ## send -/

@[simp] theorem State.send_pending (s : State) (m : OutMsg) : (s.send m).pending = s.pending := by unfold State.send; split <;> rfl
@[simp] theorem State.send_now (s : State) (m : OutMsg) : (s.send m).now = s.now := by unfold State.send; split <;> rfl
@[simp] theorem State.send_unfinished (s : State) (m : OutMsg) : (s.send m).unfinished = s.unfinished := by unfold State.send; split <;> rfl
@[simp] theorem State.send_choices (s : State) (m : OutMsg) : (s.send m).choices = s.choices := by unfold State.send; split <;> rfl
@[simp] theorem State.send_index (s : State) (m : OutMsg) : (s.send m).index = s.index := by unfold State.send; split <;> rfl
@[simp] theorem State.send_tables (s : State) (m : OutMsg) : (s.send m).tables = s.tables := by unfold State.send; split <;> rfl
@[simp] theorem State.send_ingest (s : State) (m : OutMsg) : (s.send m).ingest = s.ingest := by unfold State.send; split <;> rfl
@[simp] theorem State.send_buf (s : State) (m : OutMsg) : (s.send m).buf = s.buf := by unfold State.send; split <;> rfl
@[simp] theorem State.send_store (s : State) (m : OutMsg) : (s.send m).store = s.store := by unfold State.send; split <;> rfl
@[simp] theorem State.send_bays (s : State) (m : OutMsg) : (s.send m).bays = s.bays := by unfold State.send; split <;> rfl
@[simp] theorem State.send_labelGen (s : State) (m : OutMsg) : (s.send m).labelGen = s.labelGen := by unfold State.send; split <;> rfl
@[simp] theorem State.send_slots (s : State) (m : OutMsg) : (s.send m).slots = s.slots := by unfold State.send; split <;> rfl
@[simp] theorem State.send_power (s : State) (m : OutMsg) : (s.send m).power = s.power := by unfold State.send; split <;> rfl
@[simp] theorem State.send_journal (s : State) (m : OutMsg) : (s.send m).journal = s.journal := by unfold State.send; split <;> rfl
@[simp] theorem State.send_loader (s : State) (m : OutMsg) : (s.send m).loader = s.loader := by unfold State.send; split <;> rfl
@[simp] theorem State.send_link_fifo (s : State) (m : OutMsg) : (s.send m).link.fifo = s.link.fifo := by unfold State.send; split <;> rfl
@[simp] theorem State.send_link_peers (s : State) (m : OutMsg) : (s.send m).link.peers = s.link.peers := by unfold State.send; split <;> rfl
@[simp] theorem State.send_link_tagCounter (s : State) (m : OutMsg) : (s.send m).link.tagCounter = s.link.tagCounter := by unfold State.send; split <;> rfl
@[simp] theorem State.send_link_asks (s : State) (m : OutMsg) : (s.send m).link.asks = s.link.asks := by unfold State.send; split <;> rfl
@[simp] theorem State.send_link_window (s : State) (m : OutMsg) : (s.send m).link.window = s.link.window := by unfold State.send; split <;> rfl
@[simp] theorem State.send_link_announce (s : State) (m : OutMsg) : (s.send m).link.announce = s.link.announce := by unfold State.send; split <;> rfl
@[simp] theorem State.send_link_ipId (s : State) (m : OutMsg) : (s.send m).link.ipId = s.link.ipId := by unfold State.send; split <;> rfl
@[simp] theorem State.send_link_lastSlot (s : State) (m : OutMsg) : (s.send m).link.lastSlot = s.link.lastSlot := by unfold State.send; split <;> rfl
@[simp] theorem State.send_link_tx (s : State) (m : OutMsg) : (s.send m).link.tx = s.link.tx := by unfold State.send; split <;> rfl

/-! ## issue -/

/-- An issued transfer changes the DRAM port and nothing else (R90). -/
theorem State.issue_port (s : State) (r : Requester) (n : Nat) : ∃ p, s.issue r n = { s with buf.port := p } := by
  unfold State.issue State.grantTurn
  split
  · exact ⟨s.buf.port, rfl⟩
  · split <;> exact ⟨_, rfl⟩

@[simp] theorem State.issue_pending (s : State) (r : Requester) (n : Nat) : (s.issue r n).pending = s.pending := by obtain ⟨p, h⟩ := s.issue_port r n; rw [h]
@[simp] theorem State.issue_now (s : State) (r : Requester) (n : Nat) : (s.issue r n).now = s.now := by obtain ⟨p, h⟩ := s.issue_port r n; rw [h]
@[simp] theorem State.issue_unfinished (s : State) (r : Requester) (n : Nat) : (s.issue r n).unfinished = s.unfinished := by obtain ⟨p, h⟩ := s.issue_port r n; rw [h]
@[simp] theorem State.issue_choices (s : State) (r : Requester) (n : Nat) : (s.issue r n).choices = s.choices := by obtain ⟨p, h⟩ := s.issue_port r n; rw [h]
@[simp] theorem State.issue_link (s : State) (r : Requester) (n : Nat) : (s.issue r n).link = s.link := by obtain ⟨p, h⟩ := s.issue_port r n; rw [h]
@[simp] theorem State.issue_index (s : State) (r : Requester) (n : Nat) : (s.issue r n).index = s.index := by obtain ⟨p, h⟩ := s.issue_port r n; rw [h]
@[simp] theorem State.issue_tables (s : State) (r : Requester) (n : Nat) : (s.issue r n).tables = s.tables := by obtain ⟨p, h⟩ := s.issue_port r n; rw [h]
@[simp] theorem State.issue_ingest (s : State) (r : Requester) (n : Nat) : (s.issue r n).ingest = s.ingest := by obtain ⟨p, h⟩ := s.issue_port r n; rw [h]
@[simp] theorem State.issue_store (s : State) (r : Requester) (n : Nat) : (s.issue r n).store = s.store := by obtain ⟨p, h⟩ := s.issue_port r n; rw [h]
@[simp] theorem State.issue_bays (s : State) (r : Requester) (n : Nat) : (s.issue r n).bays = s.bays := by obtain ⟨p, h⟩ := s.issue_port r n; rw [h]
@[simp] theorem State.issue_labelGen (s : State) (r : Requester) (n : Nat) : (s.issue r n).labelGen = s.labelGen := by obtain ⟨p, h⟩ := s.issue_port r n; rw [h]
@[simp] theorem State.issue_slots (s : State) (r : Requester) (n : Nat) : (s.issue r n).slots = s.slots := by obtain ⟨p, h⟩ := s.issue_port r n; rw [h]
@[simp] theorem State.issue_power (s : State) (r : Requester) (n : Nat) : (s.issue r n).power = s.power := by obtain ⟨p, h⟩ := s.issue_port r n; rw [h]
@[simp] theorem State.issue_journal (s : State) (r : Requester) (n : Nat) : (s.issue r n).journal = s.journal := by obtain ⟨p, h⟩ := s.issue_port r n; rw [h]
@[simp] theorem State.issue_loader (s : State) (r : Requester) (n : Nat) : (s.issue r n).loader = s.loader := by obtain ⟨p, h⟩ := s.issue_port r n; rw [h]
@[simp] theorem State.issue_buf_pool (s : State) (r : Requester) (n : Nat) : (s.issue r n).buf.pool = s.buf.pool := by obtain ⟨p, h⟩ := s.issue_port r n; rw [h]
@[simp] theorem State.issue_buf_reserve (s : State) (r : Requester) (n : Nat) : (s.issue r n).buf.reserve = s.buf.reserve := by obtain ⟨p, h⟩ := s.issue_port r n; rw [h]
@[simp] theorem State.issue_buf_parityWait (s : State) (r : Requester) (n : Nat) : (s.issue r n).buf.parityWait = s.buf.parityWait := by obtain ⟨p, h⟩ := s.issue_port r n; rw [h]
@[simp] theorem State.issue_buf_holds (s : State) (r : Requester) (n : Nat) : (s.issue r n).buf.holds = s.buf.holds := by obtain ⟨p, h⟩ := s.issue_port r n; rw [h]
@[simp] theorem State.issue_buf_detached (s : State) (r : Requester) (n : Nat) : (s.issue r n).buf.detached = s.buf.detached := by obtain ⟨p, h⟩ := s.issue_port r n; rw [h]
@[simp] theorem State.issue_buf_staged (s : State) (r : Requester) (n : Nat) : (s.issue r n).buf.staged = s.buf.staged := by obtain ⟨p, h⟩ := s.issue_port r n; rw [h]
@[simp] theorem State.issue_buf_copies (s : State) (r : Requester) (n : Nat) : (s.issue r n).buf.copies = s.buf.copies := by obtain ⟨p, h⟩ := s.issue_port r n; rw [h]
@[simp] theorem State.issue_buf_nextCopy (s : State) (r : Requester) (n : Nat) : (s.issue r n).buf.nextCopy = s.buf.nextCopy := by obtain ⟨p, h⟩ := s.issue_port r n; rw [h]
@[simp] theorem State.issue_buf_fillWait (s : State) (r : Requester) (n : Nat) : (s.issue r n).buf.fillWait = s.buf.fillWait := by obtain ⟨p, h⟩ := s.issue_port r n; rw [h]
@[simp] theorem State.issue_buf_verifyWait (s : State) (r : Requester) (n : Nat) : (s.issue r n).buf.verifyWait = s.buf.verifyWait := by obtain ⟨p, h⟩ := s.issue_port r n; rw [h]
@[simp] theorem State.issue_buf_stagingMem (s : State) (r : Requester) (n : Nat) : (s.issue r n).buf.stagingMem = s.buf.stagingMem := by obtain ⟨p, h⟩ := s.issue_port r n; rw [h]
@[simp] theorem State.issue_buf_cacheMem (s : State) (r : Requester) (n : Nat) : (s.issue r n).buf.cacheMem = s.buf.cacheMem := by obtain ⟨p, h⟩ := s.issue_port r n; rw [h]
@[simp] theorem State.issue_buf_placeMem (s : State) (r : Requester) (n : Nat) : (s.issue r n).buf.placeMem = s.buf.placeMem := by obtain ⟨p, h⟩ := s.issue_port r n; rw [h]
@[simp] theorem State.issue_buf_blocks (s : State) (r : Requester) (n : Nat) : (s.issue r n).buf.blocks = s.buf.blocks := by obtain ⟨p, h⟩ := s.issue_port r n; rw [h]
@[simp] theorem State.issue_buf_appendWait (s : State) (r : Requester) (n : Nat) : (s.issue r n).buf.appendWait = s.buf.appendWait := by obtain ⟨p, h⟩ := s.issue_port r n; rw [h]
@[simp] theorem State.issue_buf_resuming (s : State) (r : Requester) (n : Nat) : (s.issue r n).buf.resuming = s.buf.resuming := by obtain ⟨p, h⟩ := s.issue_port r n; rw [h]

/-! ## restartDeepIdle -/

@[simp] theorem State.restartDeepIdle_pending (s : State) : (s.restartDeepIdle).pending = s.pending := by unfold State.restartDeepIdle; split <;> rfl
@[simp] theorem State.restartDeepIdle_now (s : State) : (s.restartDeepIdle).now = s.now := by unfold State.restartDeepIdle; split <;> rfl
@[simp] theorem State.restartDeepIdle_unfinished (s : State) : (s.restartDeepIdle).unfinished = s.unfinished := by unfold State.restartDeepIdle; split <;> rfl
@[simp] theorem State.restartDeepIdle_choices (s : State) : (s.restartDeepIdle).choices = s.choices := by unfold State.restartDeepIdle; split <;> rfl
@[simp] theorem State.restartDeepIdle_link (s : State) : (s.restartDeepIdle).link = s.link := by unfold State.restartDeepIdle; split <;> rfl
@[simp] theorem State.restartDeepIdle_index (s : State) : (s.restartDeepIdle).index = s.index := by unfold State.restartDeepIdle; split <;> rfl
@[simp] theorem State.restartDeepIdle_tables (s : State) : (s.restartDeepIdle).tables = s.tables := by unfold State.restartDeepIdle; split <;> rfl
@[simp] theorem State.restartDeepIdle_ingest (s : State) : (s.restartDeepIdle).ingest = s.ingest := by unfold State.restartDeepIdle; split <;> rfl
@[simp] theorem State.restartDeepIdle_buf (s : State) : (s.restartDeepIdle).buf = s.buf := by unfold State.restartDeepIdle; split <;> rfl
@[simp] theorem State.restartDeepIdle_store (s : State) : (s.restartDeepIdle).store = s.store := by unfold State.restartDeepIdle; split <;> rfl
@[simp] theorem State.restartDeepIdle_bays (s : State) : (s.restartDeepIdle).bays = s.bays := by unfold State.restartDeepIdle; split <;> rfl
@[simp] theorem State.restartDeepIdle_labelGen (s : State) : (s.restartDeepIdle).labelGen = s.labelGen := by unfold State.restartDeepIdle; split <;> rfl
@[simp] theorem State.restartDeepIdle_slots (s : State) : (s.restartDeepIdle).slots = s.slots := by unfold State.restartDeepIdle; split <;> rfl
@[simp] theorem State.restartDeepIdle_journal (s : State) : (s.restartDeepIdle).journal = s.journal := by unfold State.restartDeepIdle; split <;> rfl
@[simp] theorem State.restartDeepIdle_loader (s : State) : (s.restartDeepIdle).loader = s.loader := by unfold State.restartDeepIdle; split <;> rfl
@[simp] theorem State.restartDeepIdle_power_state (s : State) : (s.restartDeepIdle).power.state = s.power.state := by unfold State.restartDeepIdle; split <;> rfl
@[simp] theorem State.restartDeepIdle_power_diskIdle (s : State) : (s.restartDeepIdle).power.diskIdle = s.power.diskIdle := by unfold State.restartDeepIdle; split <;> rfl
@[simp] theorem State.restartDeepIdle_power_demands (s : State) : (s.restartDeepIdle).power.demands = s.power.demands := by unfold State.restartDeepIdle; split <;> rfl
@[simp] theorem State.restartDeepIdle_power_count (s : State) : (s.restartDeepIdle).power.count = s.power.count := by unfold State.restartDeepIdle; split <;> rfl
@[simp] theorem State.restartDeepIdle_power_window (s : State) : (s.restartDeepIdle).power.window = s.power.window := by unfold State.restartDeepIdle; split <;> rfl
@[simp] theorem State.restartDeepIdle_power_pairing (s : State) : (s.restartDeepIdle).power.pairing = s.power.pairing := by unfold State.restartDeepIdle; split <;> rfl
@[simp] theorem State.restartDeepIdle_power_power (s : State) : (s.restartDeepIdle).power.power = s.power.power := by unfold State.restartDeepIdle; split <;> rfl
@[simp] theorem State.restartDeepIdle_power_deepSince (s : State) : (s.restartDeepIdle).power.deepSince = s.power.deepSince := by unfold State.restartDeepIdle; split <;> rfl

/-! ## restartDiskIdle -/

@[simp] theorem State.restartDiskIdle_pending (s : State) : (s.restartDiskIdle).pending = s.pending := by unfold State.restartDiskIdle; split <;> rfl
@[simp] theorem State.restartDiskIdle_now (s : State) : (s.restartDiskIdle).now = s.now := by unfold State.restartDiskIdle; split <;> rfl
@[simp] theorem State.restartDiskIdle_unfinished (s : State) : (s.restartDiskIdle).unfinished = s.unfinished := by unfold State.restartDiskIdle; split <;> rfl
@[simp] theorem State.restartDiskIdle_choices (s : State) : (s.restartDiskIdle).choices = s.choices := by unfold State.restartDiskIdle; split <;> rfl
@[simp] theorem State.restartDiskIdle_link (s : State) : (s.restartDiskIdle).link = s.link := by unfold State.restartDiskIdle; split <;> rfl
@[simp] theorem State.restartDiskIdle_index (s : State) : (s.restartDiskIdle).index = s.index := by unfold State.restartDiskIdle; split <;> rfl
@[simp] theorem State.restartDiskIdle_tables (s : State) : (s.restartDiskIdle).tables = s.tables := by unfold State.restartDiskIdle; split <;> rfl
@[simp] theorem State.restartDiskIdle_ingest (s : State) : (s.restartDiskIdle).ingest = s.ingest := by unfold State.restartDiskIdle; split <;> rfl
@[simp] theorem State.restartDiskIdle_buf (s : State) : (s.restartDiskIdle).buf = s.buf := by unfold State.restartDiskIdle; split <;> rfl
@[simp] theorem State.restartDiskIdle_store (s : State) : (s.restartDiskIdle).store = s.store := by unfold State.restartDiskIdle; split <;> rfl
@[simp] theorem State.restartDiskIdle_bays (s : State) : (s.restartDiskIdle).bays = s.bays := by unfold State.restartDiskIdle; split <;> rfl
@[simp] theorem State.restartDiskIdle_labelGen (s : State) : (s.restartDiskIdle).labelGen = s.labelGen := by unfold State.restartDiskIdle; split <;> rfl
@[simp] theorem State.restartDiskIdle_slots (s : State) : (s.restartDiskIdle).slots = s.slots := by unfold State.restartDiskIdle; split <;> rfl
@[simp] theorem State.restartDiskIdle_journal (s : State) : (s.restartDiskIdle).journal = s.journal := by unfold State.restartDiskIdle; split <;> rfl
@[simp] theorem State.restartDiskIdle_loader (s : State) : (s.restartDiskIdle).loader = s.loader := by unfold State.restartDiskIdle; split <;> rfl
@[simp] theorem State.restartDiskIdle_power_state (s : State) : (s.restartDiskIdle).power.state = s.power.state := by unfold State.restartDiskIdle; split <;> rfl
@[simp] theorem State.restartDiskIdle_power_deepIdle (s : State) : (s.restartDiskIdle).power.deepIdle = s.power.deepIdle := by unfold State.restartDiskIdle; split <;> rfl
@[simp] theorem State.restartDiskIdle_power_deepDue (s : State) : (s.restartDiskIdle).power.deepDue = s.power.deepDue := by unfold State.restartDiskIdle; split <;> rfl
@[simp] theorem State.restartDiskIdle_power_demands (s : State) : (s.restartDiskIdle).power.demands = s.power.demands := by unfold State.restartDiskIdle; split <;> rfl
@[simp] theorem State.restartDiskIdle_power_count (s : State) : (s.restartDiskIdle).power.count = s.power.count := by unfold State.restartDiskIdle; split <;> rfl
@[simp] theorem State.restartDiskIdle_power_window (s : State) : (s.restartDiskIdle).power.window = s.power.window := by unfold State.restartDiskIdle; split <;> rfl
@[simp] theorem State.restartDiskIdle_power_pairing (s : State) : (s.restartDiskIdle).power.pairing = s.power.pairing := by unfold State.restartDiskIdle; split <;> rfl
@[simp] theorem State.restartDiskIdle_power_power (s : State) : (s.restartDiskIdle).power.power = s.power.power := by unfold State.restartDiskIdle; split <;> rfl
@[simp] theorem State.restartDiskIdle_power_deepSince (s : State) : (s.restartDiskIdle).power.deepSince = s.power.deepSince := by unfold State.restartDiskIdle; split <;> rfl

/-! ## clearQualifier -/

@[simp] theorem State.clearQualifier_pending (s : State) : (s.clearQualifier).pending = s.pending := rfl
@[simp] theorem State.clearQualifier_now (s : State) : (s.clearQualifier).now = s.now := rfl
@[simp] theorem State.clearQualifier_unfinished (s : State) : (s.clearQualifier).unfinished = s.unfinished := rfl
@[simp] theorem State.clearQualifier_choices (s : State) : (s.clearQualifier).choices = s.choices := rfl
@[simp] theorem State.clearQualifier_link (s : State) : (s.clearQualifier).link = s.link := rfl
@[simp] theorem State.clearQualifier_index (s : State) : (s.clearQualifier).index = s.index := rfl
@[simp] theorem State.clearQualifier_tables (s : State) : (s.clearQualifier).tables = s.tables := rfl
@[simp] theorem State.clearQualifier_ingest (s : State) : (s.clearQualifier).ingest = s.ingest := rfl
@[simp] theorem State.clearQualifier_buf (s : State) : (s.clearQualifier).buf = s.buf := rfl
@[simp] theorem State.clearQualifier_store (s : State) : (s.clearQualifier).store = s.store := rfl
@[simp] theorem State.clearQualifier_bays (s : State) : (s.clearQualifier).bays = s.bays := rfl
@[simp] theorem State.clearQualifier_labelGen (s : State) : (s.clearQualifier).labelGen = s.labelGen := rfl
@[simp] theorem State.clearQualifier_slots (s : State) : (s.clearQualifier).slots = s.slots := rfl
@[simp] theorem State.clearQualifier_journal (s : State) : (s.clearQualifier).journal = s.journal := rfl
@[simp] theorem State.clearQualifier_loader (s : State) : (s.clearQualifier).loader = s.loader := rfl
@[simp] theorem State.clearQualifier_power_state (s : State) : (s.clearQualifier).power.state = s.power.state := rfl
@[simp] theorem State.clearQualifier_power_diskIdle (s : State) : (s.clearQualifier).power.diskIdle = s.power.diskIdle := rfl
@[simp] theorem State.clearQualifier_power_deepIdle (s : State) : (s.clearQualifier).power.deepIdle = s.power.deepIdle := rfl
@[simp] theorem State.clearQualifier_power_deepDue (s : State) : (s.clearQualifier).power.deepDue = s.power.deepDue := rfl
@[simp] theorem State.clearQualifier_power_demands (s : State) : (s.clearQualifier).power.demands = s.power.demands := rfl
@[simp] theorem State.clearQualifier_power_pairing (s : State) : (s.clearQualifier).power.pairing = s.power.pairing := rfl
@[simp] theorem State.clearQualifier_power_power (s : State) : (s.clearQualifier).power.power = s.power.power := rfl
@[simp] theorem State.clearQualifier_power_deepSince (s : State) : (s.clearQualifier).power.deepSince = s.power.deepSince := rfl

/-! ## closeWindow -/

@[simp] theorem State.closeWindow_pending (s : State) : (s.closeWindow).pending = s.pending := rfl
@[simp] theorem State.closeWindow_now (s : State) : (s.closeWindow).now = s.now := rfl
@[simp] theorem State.closeWindow_unfinished (s : State) : (s.closeWindow).unfinished = s.unfinished := rfl
@[simp] theorem State.closeWindow_choices (s : State) : (s.closeWindow).choices = s.choices := rfl
@[simp] theorem State.closeWindow_index (s : State) : (s.closeWindow).index = s.index := rfl
@[simp] theorem State.closeWindow_tables (s : State) : (s.closeWindow).tables = s.tables := rfl
@[simp] theorem State.closeWindow_ingest (s : State) : (s.closeWindow).ingest = s.ingest := rfl
@[simp] theorem State.closeWindow_buf (s : State) : (s.closeWindow).buf = s.buf := rfl
@[simp] theorem State.closeWindow_store (s : State) : (s.closeWindow).store = s.store := rfl
@[simp] theorem State.closeWindow_bays (s : State) : (s.closeWindow).bays = s.bays := rfl
@[simp] theorem State.closeWindow_labelGen (s : State) : (s.closeWindow).labelGen = s.labelGen := rfl
@[simp] theorem State.closeWindow_slots (s : State) : (s.closeWindow).slots = s.slots := rfl
@[simp] theorem State.closeWindow_power (s : State) : (s.closeWindow).power = s.power := rfl
@[simp] theorem State.closeWindow_journal (s : State) : (s.closeWindow).journal = s.journal := rfl
@[simp] theorem State.closeWindow_loader (s : State) : (s.closeWindow).loader = s.loader := rfl
@[simp] theorem State.closeWindow_link_fifo (s : State) : (s.closeWindow).link.fifo = s.link.fifo := rfl
@[simp] theorem State.closeWindow_link_control (s : State) : (s.closeWindow).link.control = s.link.control := rfl
@[simp] theorem State.closeWindow_link_peers (s : State) : (s.closeWindow).link.peers = s.link.peers := rfl
@[simp] theorem State.closeWindow_link_tagCounter (s : State) : (s.closeWindow).link.tagCounter = s.link.tagCounter := rfl
@[simp] theorem State.closeWindow_link_announce (s : State) : (s.closeWindow).link.announce = s.link.announce := rfl
@[simp] theorem State.closeWindow_link_ipId (s : State) : (s.closeWindow).link.ipId = s.link.ipId := rfl
@[simp] theorem State.closeWindow_link_lastSlot (s : State) : (s.closeWindow).link.lastSlot = s.link.lastSlot := rfl
@[simp] theorem State.closeWindow_link_tx (s : State) : (s.closeWindow).link.tx = s.link.tx := rfl

/-! ## grantTurn -/

/-- A turn granted changes the DRAM port and nothing else (R90). -/
theorem State.grantTurn_port (s : State) : ∃ p, s.grantTurn = { s with buf.port := p } := by
  unfold State.grantTurn
  split
  · exact ⟨s.buf.port, rfl⟩
  · exact ⟨_, rfl⟩

@[simp] theorem State.grantTurn_pending (s : State) : s.grantTurn.pending = s.pending := by obtain ⟨p, h⟩ := s.grantTurn_port; rw [h]
@[simp] theorem State.grantTurn_now (s : State) : s.grantTurn.now = s.now := by obtain ⟨p, h⟩ := s.grantTurn_port; rw [h]
@[simp] theorem State.grantTurn_unfinished (s : State) : s.grantTurn.unfinished = s.unfinished := by obtain ⟨p, h⟩ := s.grantTurn_port; rw [h]
@[simp] theorem State.grantTurn_choices (s : State) : s.grantTurn.choices = s.choices := by obtain ⟨p, h⟩ := s.grantTurn_port; rw [h]
@[simp] theorem State.grantTurn_index (s : State) : s.grantTurn.index = s.index := by obtain ⟨p, h⟩ := s.grantTurn_port; rw [h]
@[simp] theorem State.grantTurn_tables (s : State) : s.grantTurn.tables = s.tables := by obtain ⟨p, h⟩ := s.grantTurn_port; rw [h]
@[simp] theorem State.grantTurn_ingest (s : State) : s.grantTurn.ingest = s.ingest := by obtain ⟨p, h⟩ := s.grantTurn_port; rw [h]
@[simp] theorem State.grantTurn_store (s : State) : s.grantTurn.store = s.store := by obtain ⟨p, h⟩ := s.grantTurn_port; rw [h]
@[simp] theorem State.grantTurn_bays (s : State) : s.grantTurn.bays = s.bays := by obtain ⟨p, h⟩ := s.grantTurn_port; rw [h]
@[simp] theorem State.grantTurn_labelGen (s : State) : s.grantTurn.labelGen = s.labelGen := by obtain ⟨p, h⟩ := s.grantTurn_port; rw [h]
@[simp] theorem State.grantTurn_slots (s : State) : s.grantTurn.slots = s.slots := by obtain ⟨p, h⟩ := s.grantTurn_port; rw [h]
@[simp] theorem State.grantTurn_journal (s : State) : s.grantTurn.journal = s.journal := by obtain ⟨p, h⟩ := s.grantTurn_port; rw [h]
@[simp] theorem State.grantTurn_loader (s : State) : s.grantTurn.loader = s.loader := by obtain ⟨p, h⟩ := s.grantTurn_port; rw [h]
@[simp] theorem State.grantTurn_link (s : State) : s.grantTurn.link = s.link := by obtain ⟨p, h⟩ := s.grantTurn_port; rw [h]
@[simp] theorem State.grantTurn_power (s : State) : s.grantTurn.power = s.power := by obtain ⟨p, h⟩ := s.grantTurn_port; rw [h]
@[simp] theorem State.grantTurn_buf_pool (s : State) : s.grantTurn.buf.pool = s.buf.pool := by obtain ⟨p, h⟩ := s.grantTurn_port; rw [h]
@[simp] theorem State.grantTurn_buf_reserve (s : State) : s.grantTurn.buf.reserve = s.buf.reserve := by obtain ⟨p, h⟩ := s.grantTurn_port; rw [h]
@[simp] theorem State.grantTurn_buf_parityWait (s : State) : s.grantTurn.buf.parityWait = s.buf.parityWait := by obtain ⟨p, h⟩ := s.grantTurn_port; rw [h]
@[simp] theorem State.grantTurn_buf_holds (s : State) : s.grantTurn.buf.holds = s.buf.holds := by obtain ⟨p, h⟩ := s.grantTurn_port; rw [h]
@[simp] theorem State.grantTurn_buf_detached (s : State) : s.grantTurn.buf.detached = s.buf.detached := by obtain ⟨p, h⟩ := s.grantTurn_port; rw [h]
@[simp] theorem State.grantTurn_buf_staged (s : State) : s.grantTurn.buf.staged = s.buf.staged := by obtain ⟨p, h⟩ := s.grantTurn_port; rw [h]
@[simp] theorem State.grantTurn_buf_copies (s : State) : s.grantTurn.buf.copies = s.buf.copies := by obtain ⟨p, h⟩ := s.grantTurn_port; rw [h]
@[simp] theorem State.grantTurn_buf_nextCopy (s : State) : s.grantTurn.buf.nextCopy = s.buf.nextCopy := by obtain ⟨p, h⟩ := s.grantTurn_port; rw [h]
@[simp] theorem State.grantTurn_buf_fillWait (s : State) : s.grantTurn.buf.fillWait = s.buf.fillWait := by obtain ⟨p, h⟩ := s.grantTurn_port; rw [h]
@[simp] theorem State.grantTurn_buf_verifyWait (s : State) : s.grantTurn.buf.verifyWait = s.buf.verifyWait := by obtain ⟨p, h⟩ := s.grantTurn_port; rw [h]
@[simp] theorem State.grantTurn_buf_stagingMem (s : State) : s.grantTurn.buf.stagingMem = s.buf.stagingMem := by obtain ⟨p, h⟩ := s.grantTurn_port; rw [h]
@[simp] theorem State.grantTurn_buf_cacheMem (s : State) : s.grantTurn.buf.cacheMem = s.buf.cacheMem := by obtain ⟨p, h⟩ := s.grantTurn_port; rw [h]
@[simp] theorem State.grantTurn_buf_placeMem (s : State) : s.grantTurn.buf.placeMem = s.buf.placeMem := by obtain ⟨p, h⟩ := s.grantTurn_port; rw [h]
@[simp] theorem State.grantTurn_buf_blocks (s : State) : s.grantTurn.buf.blocks = s.buf.blocks := by obtain ⟨p, h⟩ := s.grantTurn_port; rw [h]
@[simp] theorem State.grantTurn_buf_appendWait (s : State) : s.grantTurn.buf.appendWait = s.buf.appendWait := by obtain ⟨p, h⟩ := s.grantTurn_port; rw [h]
@[simp] theorem State.grantTurn_buf_resuming (s : State) : s.grantTurn.buf.resuming = s.buf.resuming := by obtain ⟨p, h⟩ := s.grantTurn_port; rw [h]

/-! ## enterPower -/

@[simp] theorem State.enterPower_pending (s : State) (p : PowerState) : (s.enterPower p).pending = s.pending := by simp [State.enterPower, State.announce]
@[simp] theorem State.enterPower_now (s : State) (p : PowerState) : (s.enterPower p).now = s.now := by simp [State.enterPower, State.announce]
@[simp] theorem State.enterPower_unfinished (s : State) (p : PowerState) : (s.enterPower p).unfinished = s.unfinished := by simp [State.enterPower, State.announce]
@[simp] theorem State.enterPower_choices (s : State) (p : PowerState) : (s.enterPower p).choices = s.choices := by simp [State.enterPower, State.announce]
@[simp] theorem State.enterPower_index (s : State) (p : PowerState) : (s.enterPower p).index = s.index := by simp [State.enterPower, State.announce]
@[simp] theorem State.enterPower_tables (s : State) (p : PowerState) : (s.enterPower p).tables = s.tables := by simp [State.enterPower, State.announce]
@[simp] theorem State.enterPower_ingest (s : State) (p : PowerState) : (s.enterPower p).ingest = s.ingest := by simp [State.enterPower, State.announce]
@[simp] theorem State.enterPower_store (s : State) (p : PowerState) : (s.enterPower p).store = s.store := by simp [State.enterPower, State.announce]
@[simp] theorem State.enterPower_bays (s : State) (p : PowerState) : (s.enterPower p).bays = s.bays := by simp [State.enterPower, State.announce]
@[simp] theorem State.enterPower_labelGen (s : State) (p : PowerState) : (s.enterPower p).labelGen = s.labelGen := by simp [State.enterPower, State.announce]
@[simp] theorem State.enterPower_slots (s : State) (p : PowerState) : (s.enterPower p).slots = s.slots := by simp [State.enterPower, State.announce]
@[simp] theorem State.enterPower_journal (s : State) (p : PowerState) : (s.enterPower p).journal = s.journal := by simp [State.enterPower, State.announce]
@[simp] theorem State.enterPower_loader (s : State) (p : PowerState) : (s.enterPower p).loader = s.loader := by simp [State.enterPower, State.announce]
@[simp] theorem State.enterPower_buf (s : State) (p : PowerState) : (s.enterPower p).buf = s.buf := by simp [State.enterPower, State.announce]
@[simp] theorem State.enterPower_power (s : State) (p : PowerState) : (s.enterPower p).power = { s.power with state := p } := by simp [State.enterPower, State.announce]
@[simp] theorem State.enterPower_link_fifo (s : State) (p : PowerState) : (s.enterPower p).link.fifo = s.link.fifo := by simp [State.enterPower, State.announce]
@[simp] theorem State.enterPower_link_peers (s : State) (p : PowerState) : (s.enterPower p).link.peers = s.link.peers := by simp [State.enterPower, State.announce]
@[simp] theorem State.enterPower_link_tagCounter (s : State) (p : PowerState) : (s.enterPower p).link.tagCounter = s.link.tagCounter := by simp [State.enterPower, State.announce]
@[simp] theorem State.enterPower_link_asks (s : State) (p : PowerState) : (s.enterPower p).link.asks = s.link.asks := by simp [State.enterPower, State.announce]
@[simp] theorem State.enterPower_link_window (s : State) (p : PowerState) : (s.enterPower p).link.window = s.link.window := by simp [State.enterPower, State.announce]
@[simp] theorem State.enterPower_link_ipId (s : State) (p : PowerState) : (s.enterPower p).link.ipId = s.link.ipId := by simp [State.enterPower, State.announce]
@[simp] theorem State.enterPower_link_lastSlot (s : State) (p : PowerState) : (s.enterPower p).link.lastSlot = s.link.lastSlot := by simp [State.enterPower, State.announce]
@[simp] theorem State.enterPower_link_tx (s : State) (p : PowerState) : (s.enterPower p).link.tx = s.link.tx := by simp [State.enterPower, State.announce]
@[simp] theorem State.enterPower_link_announce (s : State) (p : PowerState) :
    (s.enterPower p).link.announce = if p = .deep then none else some (s.now + Config.announcePeriod) := by simp [State.enterPower, State.announce]
@[simp] theorem State.enterPower_link_control (s : State) (p : PowerState) :
    (s.enterPower p).link.control = ({ s with power.state := p } : State).announce.link.control := rfl

end Sys2Proof.Machine
end

