-- ==== Sys2Proof/Tests/Slice0.lean ====
section
/-! SUPPORT. Tests/Slice0.lean: smoke tests of well-formedness, witnesses that the hypotheses of the statements are met, clause by
clause, and a few single commands, all on small states built here. -/

namespace Sys2Proof.Tests

open Sys2Proof.Machine

set_option Elab.async false

/-! ## Well-formedness refuses what it should -/

theorem test_wfFlash : (Instr.configReadEnd 0 (some [0])).wf = false := by decide
theorem test_wfLabel : (Instr.labelDone 0 ⟨0, 1⟩ [0]).wf = false := by decide
theorem test_wfSlot : slotFits (List.replicate (Config.mib + 1) 0) = false ∧
    ∀ t b data, slotFits data = false → (Instr.readSlotDone t ⟨b, 1⟩ data).wf = false := by
  refine ⟨?_, fun _ _ _ h => h⟩
  unfold slotFits
  rw [List.length_replicate]
  decide
theorem test_wfJournal : (Instr.readJournalDone 0 ⟨0, 1⟩ [0]).wf = false := by decide
/-- Attempts 0 and 3 do not occur (R120). -/
theorem test_wfAttempt : [0, 3].all (fun a => [Instr.capacityReadEnd 0 ⟨0, a⟩ 1, .labelDone 0 ⟨0, a⟩ [], .readSlotDone 0 ⟨0, a⟩ [], .writeSlotDone 0 ⟨0, a⟩,
    .readJournalDone 0 ⟨0, a⟩ [], .writeJournalDone 0 ⟨0, a⟩, .spinDownDone 0 ⟨0, a⟩, .commandAttemptFailed 0 ⟨0, a⟩].all fun c => !c.wf) = true := by decide
theorem test_wfRun : (Instr.runIdleTimeout 0 0).wf = false ∧ (Instr.runIdleTimeout 0 65536).wf = false := by decide
theorem test_wfAccepts : (Instr.configReadEnd 0 none).wf = true ∧ (Instr.labelDone 0 ⟨0, 1⟩ []).wf = true ∧
    (Instr.readSlotDone 0 ⟨0, 2⟩ [1]).wf = true ∧ (Instr.readJournalDone 0 ⟨0, 1⟩ []).wf = true ∧ (Instr.runIdleTimeout 0 65535).wf = true := by
  decide

/-! ## Small states -/

def stMac : Mac := 0x020000000005#48
def stIp : Ip := 0xA9FE0005#32
def station : Addr := { mac := stMac, ip := stIp, port := 5000 }

/-- A peer of every role with tag 1. -/
def peer : Peer := { mac := stMac, last := none, tag := 1, roles := 7, quota := 1, charged := 0, lastRun := none, lastCounted := none }

/-- The box AWAKE with a whole store, and one peer, in slot 0. -/
def box : State :=
  { State.reset with
    power.state := .awake, store.cond := some .whole, loader.settled := true
    link.peers := Link.reset.peers.set 0 (some peer) }

/-- The box with no peer. -/
def strange : State := { box with link.peers := Link.reset.peers }

def frame (k : Nat) (body : List Byte) : List Byte :=
  let img := ConfigImage.defaults
  ethernet img.mac stMac 0x0800 (ipBytes stIp img.ip 7 (udpBytes stIp img.ip 5000 img.port (hbxBytes k 1 9 0 body)))

def msg (k : Nat) (body : List Byte) : Msg :=
  { src := station, bcast := false, kind := k, tag := 1, seq := 9, bodyLength := body.length, flags := 0, body := body }

def carry (s : State) (k : Nat) (body : List Byte) : State := { s with link.fifo := [frame k body] }

/-- The premises of a statement about a message, and a further one on the message and the state it meets. -/
def meets (s : State) (k : Kind) (body : List Byte) (g : Gate) (p : Msg → State → Bool) : Bool :=
  let s := carry s k.code body
  let m := msg k.code body
  s.unfinished = [] && s.now ≤ 0 && (s.atTime 0).headFrame = some (.hbx m) && (s.atTime 0).gate m = g && p m (s.met 0 m)

theorem meets_premises {s : State} {k : Kind} {body : List Byte} {g : Gate} {p : Msg → State → Bool} (h : meets s k body g p = true) :
    (carry s k.code body).Settled 0 ∧ (carry s k.code body).Brings 0 (msg k.code body) g ∧ (msg k.code body).kind = k.code ∧
      p (msg k.code body) ((carry s k.code body).met 0 (msg k.code body)) = true := by
  simp only [meets, Bool.and_eq_true, decide_eq_true_eq] at h
  exact ⟨⟨h.1.1.1.1, h.1.1.1.2⟩, ⟨h.1.1.2, h.1.2⟩, rfl, h.2⟩

/-- The premises of a statement about a command at a time, and a further one on the state. -/
def quiet (s : State) (t : Nat) (p : State → Bool) : Bool := s.unfinished = [] && s.now ≤ t && p s

theorem quiet_premises {s : State} {t : Nat} {p : State → Bool} (h : quiet s t p = true) : s.Settled t ∧ p s = true := by
  simp only [quiet, Bool.and_eq_true, decide_eq_true_eq] at h
  exact ⟨⟨h.1.1, h.1.2⟩, h.2⟩

/-- What a command answers. -/
def after (c : Instr) (s : State) : State :=
  match exec c s with
  | .next u => u
  | _ => s

/-! ## The queue, resets and configuration -/

theorem test_emptyQueue : State.reset.pending = [] ∧ step State.reset = .next { State.reset with now := 1 } := ⟨rfl, rfl⟩
theorem test_frontCommand : step { box with pending := [.announceTimer 5] } = exec (.announceTimer 5) box := rfl
theorem test_invariantPremises : box.Inv ∧ ∃ u, step box = .next u :=
  ⟨⟨Memory.wf_nil, Memory.wf_nil, Memory.wf_nil, by decide, by decide, by decide, by decide, by decide, by decide⟩, _, rfl⟩
theorem test_otherCommand : ∃ u, exec (.announceTimer 5) box = .next u := ⟨_, rfl⟩

def strapsOpen : Straps := { dramGiB := true, factoryClear := false, flashPresent := false }
theorem test_resetPremises : quiet State.reset 0 (fun s => s.loader.straps.flashPresent && !s.loader.settled) = true ∧
    quiet box 3 (fun s => s.loader.settled) = true ∧ strapsOpen.flashPresent = false ∧
    (Vector.replicate 4 false |>.set 0 true)[(0 : BayNo)] = true := by decide +kernel
/-- With the flash open and one disk present, a COLD reset leaves its bay spinning up (R187, R194). -/
theorem test_coldReset : let u := after (.coldReset 7 strapsOpen (Vector.replicate 4 false |>.set 0 true)) State.reset
    u.loader.settled = true ∧ u.bays[0].spin = some { attempt := 1, start := 7 } ∧ u.bays[1].spin = none ∧ u.bays[1].power = true ∧
      u.link.control.length = 1 := by decide +kernel
theorem test_warmReset : let u := after (.warmReset 9) box
    u.power.state = .starting ∧ u.bays[0].offSince = some 9 ∧ u.link.peers[0] = none := by decide +kernel
/-- The configuration settles after a COLD reset with a disk present, or after a WARM reset whose bays are being probed (R194). -/
theorem test_settlePremises : let probed : Bay := { Bay.reset true with probe := some .power }
    quiet { State.reset with loader.cold := true, bays := State.reset.bays.set 3 (Bay.reset true) } 0
      (fun s => s.loader.cold && !s.loader.settled && s.loader.straps.flashPresent && s.bays[(3 : BayNo)].present) = true ∧
    quiet { State.reset with loader.cold := false, bays := State.reset.bays.set 3 probed } 0
      (fun s => !s.loader.cold && !s.loader.settled && s.loader.straps.flashPresent && s.bays[(3 : BayNo)].probe.isSome) = true := by
  decide +kernel
theorem test_recordsGoodAndBad : configGood [] = false ∧
    configGood (padTo 252 (be 4 0x48424346 ++ [1]) ++ be 4 (bodyCheck (padTo 252 (be 4 0x48424346 ++ [1])))) = true := by decide +kernel

/-! ## The exchange -/

theorem test_frameAdmitted : frameAdmitted ConfigImage.defaults.mac (frame 1 []) = true ∧
    (after (.frameArrival 0 (frame 1 [])) box).link.fifo = [frame 1 []] ∧
    (after (.frameArrival 0 ((frame 1 []).set 20 0xFF)) box).link.fifo = [] := by decide +kernel
def arpAsk : List Byte :=
  let img := ConfigImage.defaults
  ethernet allOnes stMac 0x0806 (be 2 1 ++ be 2 0x0800 ++ [6, 4] ++ be 2 1 ++ be 6 stMac.toNat ++ be 4 stIp.toNat ++ be 6 0 ++ be 4 img.ip.toNat)
theorem test_dropAndArpPremises :
    quiet { box with link.fifo := [[]] } 0 (fun s => (s.atTime 0).headFrame = some .drop) = true ∧
    quiet { box with link.fifo := [arpAsk] } 0 (fun s => (s.atTime 0).headFrame = some (.arp stMac stIp)) = true := by decide +kernel
theorem test_hello : meets strange .hello [] .dispatch (fun m _ => !m.malformed) = true ∧
    meets { strange with power.state := .deep } .hello [] .drop (fun _ _ => true) = true ∧
    meets { box with power.state := .deep } .hello [] .leaveDeep (fun _ _ => true) = true ∧
    meets { box with power.state := .deep } .wake [] .leaveDeep (fun _ _ => true) = true := by decide +kernel
theorem test_refused : meets strange .wake [] (.refuse stNotPaired) (fun _ _ => true) = true ∧
    meets strange .groupGo [1] .drop (fun _ _ => true) = true ∧
    meets strange .viewReport (List.replicate 11 0) .drop (fun _ _ => true) = true := by decide +kernel
/-- A state for each check of R6. -/
theorem test_checkOrder :
    ({ box with power.state := .deep } : State).gate (msg 6 []) = .leaveDeep ∧
    ({ box with power.state := .starting } : State).gate (msg 6 []) = .refuse stStarting ∧
    box.gate (msg 6 [0]) = .refuse stBadForm ∧
    ({ box with store.cond := some .absent } : State).gate (msg 6 []) = .refuse stDiskFault ∧
    box.gate { msg 6 [] with tag := 2 } = .refuse stNotPaired ∧
    ({ box with link.peers := Link.reset.peers.set 0 (some { peer with roles := 1 }) } : State).gate (msg 0x37 []) = .refuse stNotAllowed ∧
    box.gate (msg 6 []) = .dispatch ∧
    ({ box with power.state := .starting } : State).gate (msg 5 []) = .dispatch ∧
    ({ box with store.cond := some .absent } : State).gate (msg 1 []) = .dispatch ∧
    strange.gate (msg Kind.pairAsk.code (List.replicate 37 0)) = .dispatch ∧ box.gate (msg Kind.groupGo.code [1]) = .dispatch := by decide +kernel
def askBody (roles : Byte) : List Byte := [roles] ++ be 4 50 ++ List.replicate 32 0
def ask (n : Nat) : Ask := { mac := BitVec.ofNat 48 n, roles := 1, quota := 5, label := [], asked := 0 }
def open' (s : State) : State := { s with link.window := some 1000 }
theorem test_pairAskPremises :
    meets box .pairAsk (askBody 1) .dispatch (fun _ u => u.link.window = none) = true ∧
    meets (open' box) .pairAsk (askBody 1) .dispatch (fun m u => u.link.window ≠ none && (u.peerOf m.src.mac).isSome) = true ∧
    meets (open' strange) .pairAsk (askBody 8) .dispatch (fun m u => !(u.peerOf m.src.mac).isSome && 7 < byteAt m.body 0) = true ∧
    meets { open' strange with link.asks := [ask 1, ask 2, ask 3, ask 4] } .pairAsk (askBody 7) .dispatch
      (fun _ u => 4 ≤ u.link.asks.length) = true ∧
    meets (open' strange) .pairAsk (askBody 1) .dispatch (fun m u => u.link.asks.length < 4 && byteAt m.body 0 ≤ 7) = true := by
  decide +kernel
def asked (s : State) : State := { s with link.asks := [ask stMac.toNat] }
theorem test_pairConfirmPremises :
    meets strange .pairConfirm [] .dispatch (fun m u => u.link.asks.find? (fun a => a.mac = m.src.mac) = none) = true ∧
    meets (asked strange) .pairConfirm [] .dispatch (fun m u => (u.link.asks.find? (fun a => a.mac = m.src.mac)).isSome &&
      u.link.peers.toList.findIdx? (·.isNone) = some 0) = true ∧
    meets { asked strange with link.peers := Vector.replicate 24 (some { peer with mac := 1 }) } .pairConfirm [] .dispatch
      (fun _ u => u.link.peers.toList.findIdx? (·.isNone) = none) = true := by decide +kernel
theorem test_unpairPremises : meets box .unpair [] .dispatch (fun m u => !u.ownsAnything (u.sender m)) = true ∧
    meets { box with ingest.runs := [newRun 5 0 0] } .unpair [] .dispatch (fun m u => u.ownsAnything (u.sender m)) = true := by
  decide +kernel
theorem test_reportPremises : meets strange .query [] (.refuse stNotPaired) (fun _ _ => true) = true ∧
    meets box .query [] .dispatch (fun _ _ => true) = true ∧
    meets box .objectInfo (be 4 1 ++ be 2 0) .dispatch (fun m u => u.obj? (field m.body 0 4) = none) = true ∧
    meets { box with tables.objs := [newObject 1 0 5 []] } .objectInfo (be 4 1 ++ be 2 0) .dispatch
      (fun m u => (u.obj? (field m.body 0 4)).isSome) = true ∧
    meets box .albumList [64, 0, 0] .dispatch (fun _ _ => true) = true ∧
    meets box .albumList [63, 0, 0] .dispatch (fun m u => u.album? (byteAt m.body 0) = none) = true ∧
    meets { box with tables.albums := Tables.reset.albums.set 63 (some { owner := 0, label := [], entries := [1] }) } .albumList [63, 0, 0]
      .dispatch (fun m u => (u.album? (byteAt m.body 0)).isSome) = true := by decide +kernel
theorem test_wakePremises : meets box .wake [] .dispatch (fun _ u => u.power.state = .awake) = true ∧
    meets { box with power.state := .waking } .wake [] .dispatch (fun _ u => u.power.state = .waking) = true ∧
    meets { box with power.state := .quiet } .wake [] .dispatch (fun _ u => u.power.state = .quiet) = true := by decide +kernel
def out : OutMsg := .hbx station kindReply 1 9 0 []
def sending (s : State) : State := { s with slots := s.slots.set 2 { Slot.reset with sendQueue := [out] } }
theorem test_arbiterPremises : quiet { box with link.control := [out] } 0 (fun s => s.link.control = [out]) = true ∧
    quiet (sending box) 0 (fun s => s.link.control = [] &&
      (slotsAfter s.link.lastSlot).find? (fun j => !s.slots[j].sendQueue.isEmpty) = some 2) = true ∧
    quiet box 0 (fun s => s.link.control = [] && s.slots.toList.all fun x => x.sendQueue.isEmpty) = true := by decide +kernel
theorem test_linkTimerPremises : quiet { box with link.announce := some 30 } 30 (fun s => s.link.announce = some 30) = true ∧
    quiet (open' box) 1000 (fun s => s.link.window = some 1000) = true ∧ quiet (asked box) 10000 (fun _ => true) = true := by
  decide +kernel
theorem test_linkTimers : (after (.pairingWindowExpiry 1000) (open' (asked box))).link.asks = [] ∧
    (after (.pairingWindowExpiry 999) (open' (asked box))).link.asks.length = 1 ∧
    (after (.pendingAskExpiry 10000 stMac) (asked box)).link.asks = [] ∧
    (after (.pendingAskExpiry 9999 stMac) (asked box)).link.asks.length = 1 := by decide +kernel
theorem test_unknownKindPremises : ((carry box 0x7F []).atTime 0).headFrame = some (.hbx (msg 0x7F [])) ∧ Kind.ofCode 0x7F = none := by
  decide +kernel

/-! ## Backup -/

def running (r : Run) : State := { box with ingest.runs := [r] }
def runA : Run := newRun 5 0 0
def runB : Run := newRun 5 1 0
def closingA : Run := { runA with closing := true }
theorem test_runOpenPremises : meets box .runOpen [] .dispatch (fun _ u => u.ingest.runs = [] && !u.runIdUsed u.ingest.counter) = true ∧
    meets { box with ingest.runs := [newRun 1 0 0, newRun 2 0 0] } .runOpen [] .dispatch
      (fun m u => 2 ≤ u.ingest.runs.countP (fun r => r.owner = u.sender m)) = true ∧
    meets { box with ingest.runs := (List.range 8).map fun i => newRun (i + 1) (i + 1) 0 } .runOpen [] .dispatch
      (fun _ u => 8 ≤ u.ingest.runs.length) = true := by decide +kernel
theorem test_runOpen : (after (.runOpen 0) (carry { box with ingest.counter := 65535 } 0x10 [])).ingest.runs = [newRun 65535 0 0] ∧
    (after (.runOpen 0) (carry { box with ingest.counter := 65535 } 0x10 [])).ingest.counter = 1 := by decide +kernel
theorem test_runEndPremises : meets box .runAbort [0, 5] .dispatch (fun m u => u.run? (field m.body 0 2) = none) = true ∧
    meets (running runB) .runAbort [0, 5] .dispatch (fun m u => (u.run? 5).any fun r => r.owner ≠ u.sender m) = true ∧
    meets (running runA) .runAbort [0, 5] .dispatch (fun m u => (u.run? 5).any fun r => r.owner = u.sender m) = true ∧
    quiet (running runA) 300000 (fun s => s.run? 5 = some runA) = true ∧
    quiet (running closingA) 300000 (fun s => s.run? 5 = some closingA) = true := by decide +kernel
theorem test_runCloseCases :
    meets { box with link.peers := Link.reset.peers.set 0 (some { peer with lastRun := some 5 }) } .runClose [0, 5] .dispatch
      (fun m u => u.run? 5 = none && (u.peer (u.sender m)).bind (·.lastRun) = some 5) = true ∧
    meets box .runClose [0, 5] .dispatch (fun _ u => u.run? 5 = none) = true ∧
    meets (running runB) .runClose [0, 5] .dispatch (fun _ u => (u.run? 5).isSome) = true ∧
    meets (running closingA) .runClose [0, 5] .dispatch (fun m u => (u.run? 5).any fun r => r.owner = u.sender m && r.closing) = true ∧
    meets (running runA) .runClose [0, 5] .dispatch (fun m u => (u.run? 5).any fun r => r.owner = u.sender m && !r.closing) = true := by
  decide +kernel
def offerBody : List Byte := [0, 5, 1, 0] ++ be 16 77 ++ be 4 1 ++ be 4 9
theorem test_offerSendPremises : meets (running runA) .offer offerBody .dispatch (fun m u => offerItems m.body = [{ name := 77, length := 1, check := 9 }] &&
    u.verdict 0 { name := 77, length := 1, check := 9 } = stSend && u.freeArrivalNo = some 0) = true := by decide +kernel
theorem test_offerPremises : meets box .offer offerBody .dispatch (fun _ u => u.run? 5 = none) = true ∧
    meets (running runB) .offer offerBody .dispatch (fun m u => (u.run? 5).any fun r => r.owner ≠ u.sender m) = true ∧
    meets (running closingA) .offer offerBody .dispatch (fun _ u => (u.run? 5).any (·.closing)) = true ∧
    meets (running runA) .offer offerBody .dispatch (fun _ u => (u.run? 5).any fun r => !r.closing) = true := by decide +kernel
def item (n : Nat) : OfferItem := { name := 77, length := n, check := 9 }
def entryIn (st : EntryState) : Entry := { newEntry 77 1 9 5 0 [0] with state := st }
def holding (st : EntryState) : State := { box with index := [entryIn st] }
/-- One state for each case of R68. -/
theorem test_verdicts : box.verdict 0 (item 0) = stBadRange ∧ box.verdict 0 (item 1048577) = stBadRange ∧
    ({ box with store.cond := some .broken } : State).verdict 0 (item 1) = stDiskFault ∧ (holding .staged).verdict 0 (item 1) = stHave ∧
    (holding .checking).verdict 0 (item 1) = stInflight ∧ (holding .lost).verdict 0 (item 2) = stBadRange ∧
    (holding .lost).verdict 0 (item 1) = stSend ∧
    ({ box with loader.image.indexCapacity := 0 } : State).verdict 0 (item 1) = stFull ∧
    ({ box with link.peers := Link.reset.peers.set 0 (some { peer with charged := 1 }) } : State).verdict 0 (item 1) = stQuota ∧
    ({ box with loader.image.stagingPages := 0 } : State).verdict 0 (item 1) = stWait ∧ box.verdict 0 (item 1048576) = stSend := by
  decide +kernel
/-- What an item given SEND needs: a sender, and no entry or a LOST one (R69). -/
theorem test_sendPremises : box.peer 0 = some peer ∧ box.entry? 77 = none ∧
    ({ holding .lost with index := [{ entryIn .lost with loc := some (3, 0) }] } : State).entry? 77 =
      some { entryIn .lost with loc := some (3, 0) } ∧ (holding .lost).entry? 77 = some (entryIn .lost) := by decide +kernel
def arriving (a : Arrival) : State :=
  { running runA with
    ingest.arrivals := Ingest.reset.arrivals.set 3 { gen := 1, use := some a }
    index := [{ entryIn .arriving with pages := [2] }], buf.pool := [(2, .reserved)] }
def arr : Arrival := newArrival (item 1) 5 0 1 0
/-- A one-byte chunk comes as segment 0 of arrival 35 (R70, R71). -/
theorem test_chunkPremises : meets box .chunk [0, 35, 0, 0, 8] .dispatch (fun _ u => u.arrivalOf 35 = none) = true ∧
    meets (arriving arr) .chunk [0, 35, 0, 1, 8] .dispatch
      (fun m u => u.arrivalOf 35 = some 3 && u.arrival? 3 = some arr && !arr.accepts (u.sender m) 1 1) = true ∧
    meets (arriving arr) .chunk [0, 35, 0, 0, 8] .dispatch
      (fun m u => u.arrivalOf 35 = some 3 && u.arrival? 3 = some arr && arr.accepts (u.sender m) 0 1) = true := by decide +kernel
/-- A segment that leaves one missing, and one that completes its arrival while 48 items are queued (R72). -/
theorem test_chunkCases :
    meets (arriving { arr with length := 1025, segments := 2 }) .chunk [0, 35, 0, 1, 8] .dispatch (fun m u =>
      (u.arrival? 3).any fun a => a.accepts (u.sender m) 1 1 && a.got.length + 1 ≠ a.segments) = true ∧
    meets { arriving arr with ingest.queue := List.replicate 48 (.ingest 35 77 1 [2] 9) } .chunk [0, 35, 0, 0, 8] .dispatch (fun m u =>
      (u.arrival? 3).any fun a => a.accepts (u.sender m) 0 1 && a.got.length + 1 = a.segments && 48 ≤ u.ingest.queue.length) = true := by
  decide +kernel
theorem test_chunkInvariant : (carry (arriving arr) 0x14 [0, 35, 0, 0, 8]).Inv :=
  ⟨Memory.wf_nil, Memory.wf_nil, Memory.wf_nil, by decide, by decide, by decide, by decide, by decide, by decide⟩
theorem test_chunk : let u := after (.chunk 4) (carry (arriving arr) 0x14 [0, 35, 0, 0, 8])
    u.buf.stagingMem.read (2 * 65536) = 8 ∧ u.arrival? 3 = some { arr with got := [0], last := 4, checking := true } ∧
      u.ingest.queue = [.ingest 35 77 1 [2] 9] := by decide +kernel
theorem test_arrivalPremises : quiet (arriving arr) 10000 (fun s => s.arrival? 3 = some arr) = true ∧
    quiet (arriving { arr with checking := true }) 10000 (fun s => (s.arrival? 3).any (·.checking)) = true := by decide +kernel
def ingestItem : CheckItem := .ingest 35 77 1 [2] 9
def copyA : Copy :=
  { id := 4, name := 77, length := 1, check := 9, pages := [0], loc := (0, 0), stage := .checking, pins := 1, drop := false
    rebuilt := false, work := true }
def verifyItem : CheckItem := .verify 4 77 1 [0] 9
def goodCheck : Nat := bodyCheck [0]
theorem test_lanePremises :
    quiet { box with ingest.queue := [ingestItem] } 0 (fun s => s.ingest.lanes[(0 : Fin 2)] = none && s.ingest.checkWait = []) = true ∧
    quiet { box with ingest.queue := [ingestItem], ingest.checkWait := [ingestItem] } 0 (fun s => s.buf.verifyWait = []) = true ∧
    quiet { box with ingest.queue := [ingestItem], buf.verifyWait := [verifyItem] } 0 (fun s => s.ingest.checkWait = []) = true ∧
    quiet { arriving arr with ingest.lanes := Ingest.reset.lanes.set 0 (some ingestItem) } 0 (fun s => s.arrivalOf 35 = some 3 &&
      bodyCheck (s.buf.stagingMem.chunkBytes [2] 0 1) = goodCheck && goodCheck ≠ 9) = true ∧
    quiet { box with ingest.lanes := Ingest.reset.lanes.set 0 (some verifyItem), buf.copies := [copyA] } 0
      (fun s => s.copy? 4 = some copyA && bodyCheck (s.buf.cacheMem.chunkBytes [0] 0 1) = goodCheck) = true := by decide +kernel

/-! ## Objects and albums -/

def beginBody : List Byte := [0, 5, 0]
def objA : Obj := newObject 1 0 5 []
def objC : Obj := { objA with state := .complete, names := [77], total := 1 }
def withObj (o : Obj) : State := { running { runA with objects := [1] } with tables.objs := [o] }
theorem test_objectBeginPremises : meets box .objectBegin beginBody .dispatch (fun _ u => u.run? 5 = none) = true ∧
    meets (running runB) .objectBegin beginBody .dispatch (fun m u => (u.run? 5).any fun r => r.owner ≠ u.sender m) = true ∧
    meets (running closingA) .objectBegin beginBody .dispatch (fun _ u => (u.run? 5).any (·.closing)) = true ∧
    meets (running { runA with objects := List.replicate 16 1 }) .objectBegin beginBody .dispatch
      (fun _ u => (u.run? 5).any fun r => 16 ≤ r.objects.length) = true ∧
    meets { running runA with loader.image.objectCapacity := 0 } .objectBegin beginBody .dispatch
      (fun _ u => u.loader.image.objectCapacity ≤ u.tables.objs.length) = true ∧
    meets (running runA) .objectBegin beginBody .dispatch (fun _ u => u.tables.objs.length < u.loader.image.objectCapacity) = true := by
  decide +kernel
/-- The counter is free, or in use at its last value, and goes on from there (R40). -/
theorem test_objectIds : (running runA).obj? (running runA).tables.counter = none ∧
    ({ withObj { objA with id := 4294967295 } with tables.counter := 4294967295 } : State).takeObjectId = 1 ∧
    nextObjectId [1, 4294967295] 3 4294967295 = 2 := by decide +kernel
/-- An object of which a checkpoint image holds the first 200 names is completed by the record behind the image (R55, R184). -/
theorem test_partialObject : let first : Record := .objectComplete 1 0 [] 201 (List.replicate 200 7)
    let image := Loaded.empty.replay ((Loaded.empty.apply first).records ++ [Record.objectMore 1 [8]])
    image.objs.map (fun (o : LoadedObj) => (o.total, o.names)) = [(201, List.replicate 200 7 ++ [8])] := by decide +kernel
/-- The objects a request may name: none, another's, an OPEN, a COMPLETE and a RETIRED one. -/
def objCases : List (State × (State → Bool)) :=
  [(box, fun u => u.obj? 1 = none), (withObj { objA with owner := 1 }, fun u => (u.obj? 1).any fun o => o.owner ≠ 0),
   (withObj objA, fun u => (u.obj? 1).any fun o => o.owner = 0 && o.state = .opened && o.names = []),
   (withObj { objA with names := [77], total := 1 }, fun u => (u.obj? 1).any fun o => o.names ≠ [] && !u.settled 77),
   ({ withObj { objA with names := [77], total := 1 } with index := [{ entryIn .stored with mark := true }] },
     fun u => (u.obj? 1).any fun o => o.names ≠ [] && u.settled 77),
   (withObj objC, fun u => (u.obj? 1).any fun o => o.state = .complete && !o.pending && o.albumCount + o.playCount = 0),
   (withObj { objC with albumCount := 1 }, fun u => (u.obj? 1).any fun o => o.state = .complete && o.albumCount + o.playCount ≠ 0),
   (withObj { objC with pending := true }, fun u => (u.obj? 1).any fun o => o.state = .complete && o.pending && o.run = some 5),
   (withObj { objC with pending := true, albumCount := 1 }, fun u => (u.obj? 1).any fun o => o.pending && o.albumCount + o.playCount ≠ 0),
   (withObj { objC with state := .retired }, fun u => (u.obj? 1).any fun o => o.state = .retired)]
theorem test_objectPremises :
    objCases.all (fun c => meets c.1 .objectAppend (be 4 1 ++ [1] ++ be 16 77) .dispatch fun m u => u.sender m = 0 && c.2 u) = true ∧
    objCases.all (fun c => meets c.1 .objectFinish (be 4 1) .dispatch fun m u => u.sender m = 0 && c.2 u) = true ∧
    objCases.all (fun c => meets c.1 .objectDelete (be 4 1) .dispatch fun m u => u.sender m = 0 && c.2 u) = true := by
  decide +kernel
/-- The names of an OBJECT-APPEND: taken, missing, at the refcount limit (R42). -/
theorem test_appendStops : let s := withObj objA
    s.appendStop objA 77 = some stMissing ∧ ({ s with index := [entryIn .arriving] } : State).appendStop objA 77 = some stMissing ∧
    ({ s with index := [entryIn .stored] } : State).appendStop objA 77 = none ∧ s.obj? 1 = some objA ∧
    ({ s with index := [{ entryIn .stored with refcount := 65535 }] } : State).appendStop objA 77 = some stRefLimit := by decide +kernel
theorem test_fullLists (s : State) (n : Name) : s.appendStop { objA with names := List.replicate 16384 0 } n = some stBadRange :=
  if_pos (by rw [List.length_replicate]; exact Nat.le_refl _)
def labelBytes : List Byte := List.replicate 32 0
def album (owner : Nat) (es : List Nat) : State :=
  { withObj objC with tables.albums := Tables.reset.albums.set 0 (some { owner := owner, label := labelBytes, entries := es }) }
theorem test_albumCreatePremises : meets box .albumCreate labelBytes .dispatch (fun _ u => u.album? 0 = none) = true ∧
    meets (album 0 []) .albumCreate labelBytes .dispatch (fun _ u => u.album? 1 = none && (u.album? 0).isSome) = true ∧
    meets { box with tables.albums := Vector.replicate 64 (some { owner := 0, label := [], entries := [] }) } .albumCreate labelBytes
      .dispatch (fun _ u => (List.range 64).all fun a => (u.album? a).isSome) = true := by decide +kernel
def recorded : State := { album 0 [] with tables.objs := [{ objC with recorded := true }] }
/-- One album and one object for each case of R51. -/
theorem test_addRefusals : (album 0 []).addRefusal 64 1 = some stBadRange ∧ (album 0 []).addRefusal 1 1 = some stNoSuch ∧
    (album 0 []).addRefusal 0 2 = some stNoSuch ∧
    ({ recorded with tables.objs := [objA] } : State).addRefusal 0 1 = some stNotComplete ∧
    ({ recorded with tables.objs := [{ objC with pending := true }] } : State).addRefusal 0 1 = some stNotComplete ∧
    ({ recorded with tables.objs := [{ objC with state := .retired }] } : State).addRefusal 0 1 = some stRetired ∧
    (album 0 [1]).addRefusal 0 1 = some stDuplicate ∧ recorded.addRefusal 0 1 = none ∧
    (album 0 (List.replicate 2048 7)).addRefusal 0 1 = some stFull := by decide +kernel
theorem test_albumEntryPremises :
    meets recorded .albumAdd ([0] ++ be 4 1 ++ be 2 0) .dispatch (fun _ u => u.addRefusal 0 1 = none && (u.album? 0).isSome) = true ∧
    meets box .albumAdd ([63] ++ be 4 1 ++ be 2 0) .dispatch (fun _ u => (u.addRefusal 63 1).isSome) = true ∧
    meets box .albumRemove ([64] ++ be 4 1) .dispatch (fun m _ => 63 < byteAt m.body 0) = true ∧
    meets box .albumRemove ([63] ++ be 4 1) .dispatch (fun _ u => u.album? 63 = none) = true ∧
    meets (album 0 []) .albumRemove ([0] ++ be 4 1) .dispatch (fun _ u => (u.album? 0).any fun a => a.entries = []) = true ∧
    meets (album 0 [1]) .albumRemove ([0] ++ be 4 1) .dispatch (fun _ u => (u.album? 0).any fun a => a.entries.findIdx? (· = 1) = some 0) = true ∧
    meets box .albumDrop [64] .dispatch (fun m _ => 63 < byteAt m.body 0) = true ∧
    meets box .albumDrop [63] .dispatch (fun _ u => u.album? 63 = none) = true ∧
    meets (album 1 []) .albumDrop [0] .dispatch (fun m u => (u.album? 0).any fun a => a.owner ≠ u.sender m) = true ∧
    meets (album 0 [1]) .albumDrop [0] .dispatch (fun m u => (u.album? 0).any fun a => a.owner = u.sender m) = true := by decide +kernel

/-! ## Stream slots -/

def xfer : Transfer :=
  { obj := 1, start := 0, length := 9, profile := .shaped, floor := 8, peak := 100, rise := 1, fall := 1, taper := .none, mark1 := 0
    mark2 := 0, group := 0, haltWithGroup := false, lagBand := 5 }
def pacerA : Pacer :=
  { rate := 9, phase := .rising, target := .floor, pendingPeak := none, credit := 0, sent := 0, taperStop := false }
def slotA : Slot :=
  { Slot.reset with
    state := .running, owner := some 0, ret := some station, tagCounter := 1, interval := some 1, pacer := some pacerA
    tracker := some Tracker.fresh, cur := some { xfer := xfer, tag := 1, nextDropped := false } }
/-- The box with a slot 7 and an object of 9 bytes to play. -/
def playing (x : Slot) : State :=
  { box with slots := box.slots.set 7 x, tables.objs := [{ objC with total := 9, recorded := true, playCount := 1 }], index := [entryIn .stored] }
def stopped : Slot := { Slot.reset with owner := some 0, resume := some { xfer := xfer, sent := 4, made := 0 } }
def playBody (slot : Byte) (start : Nat) : List Byte := [slot] ++ be 4 1 ++ be 8 start ++ be 8 1 ++ List.replicate 40 0
theorem test_playPremises :
    meets box .play (playBody 8 0) .dispatch (fun m _ => 7 < byteAt m.body 0 && byteAt m.body 0 ≠ 0xFF) = true ∧
    meets (playing { Slot.reset with owner := some 1 }) .play (playBody 7 0) .dispatch
      (fun m u => !playRefused m.body && match u.playSlot 7 (u.sender m) with | .error _ => true | .ok _ => false) = true ∧
    meets box .play (playBody 7 0) .dispatch (fun _ u => (u.claimRefusal 1).isSome) = true ∧
    meets (playing Slot.reset) .play (playBody 7 9) .dispatch (fun _ u => u.claimRefusal 1 = none && (u.obj? 1).isSome) = true ∧
    meets (playing Slot.reset) .play (playBody 7 8) .dispatch
      (fun m u => !playRefused m.body && u.claimRefusal 1 = none && match u.playSlot 7 (u.sender m) with | .error _ => false | .ok i => i = 7) = true ∧
    meets (playing Slot.reset) .play (playBody 0xFF 8) .dispatch
      (fun m u => match u.playSlot 0xFF (u.sender m) with | .error _ => false | .ok i => i = 0) = true := by decide +kernel
def bareSlot (i : SlotNo) (s : State) : Bool := s.slots[i].state = .idle && s.slots[i].owner = none && s.slots[i].resume = none
/-- Every slot but 7 has a transfer; slot 7 a resume record, or a transfer too. -/
def crowded (x : Slot) : State := { playing x with slots := (Vector.replicate 8 slotA).set 7 x }
/-- A state for each case of steps 3 and 4 of R127 and of R128. -/
theorem test_playSlots :
    ((playing { slotA with owner := some 1 }).playSlot 7 0 matches .error 9) = true ∧
    ((playing { slotA with next := some xfer }).playSlot 7 0 matches .error 14) = true ∧
    ((playing slotA).playSlot 7 0 matches .ok 7) = true ∧
    bareSlot 0 (playing slotA) = true ∧ ((playing slotA).playSlot 255 0 matches .ok 0) = true ∧
    slotNos.all (fun i => !bareSlot i (crowded stopped)) = true ∧ ((crowded stopped).playSlot 255 1 matches .ok 7) = true ∧
    slotNos.all (fun i => !bareSlot i (crowded slotA)) = true ∧ ((crowded slotA).playSlot 255 1 matches .error 13) = true ∧
    box.claimRefusal 1 = some stNoSuch ∧ (withObj objA).claimRefusal 1 = some stNotComplete ∧
    (withObj { objC with state := .retired }).claimRefusal 1 = some stRetired ∧ (withObj objC).claimRefusal 1 = none := by decide +kernel
/-- A PLAY into the IDLE slot 7 runs at once; one into the running slot 7 waits as next record (R128). -/
theorem test_playPlaces : let u := after (.play 3) (carry (playing Slot.reset) 0x30 (playBody 7 8))
    let v := after (.play 3) (carry (playing slotA) 0x30 (playBody 7 8))
    u.slots[(7 : SlotNo)].state = .running ∧ u.slots[(7 : SlotNo)].owner = some 0 ∧ u.slots[(7 : SlotNo)].interval = some 4 ∧
    ((u.obj? 1).map (·.playCount)) = some 2 ∧ v.slots[(7 : SlotNo)].next.isSome = true ∧ v.slots[(7 : SlotNo)].tagCounter = 1 := by
  decide +kernel
def resumeBody (slot : Byte) (group : Byte) : List Byte := [slot] ++ List.replicate 14 0 ++ [group]
theorem test_resumePremises : meets box .resume (resumeBody 8 0) .dispatch (fun m _ => 7 < byteAt m.body 0) = true ∧
    meets (playing { slotA with owner := some 1 }) .resume (resumeBody 7 0) .dispatch
      (fun m u => u.slots[(7 : SlotNo)].owner ≠ some (u.sender m)) = true ∧
    meets (playing stopped) .resume (resumeBody 7 16) .dispatch (fun m _ => resumeRefused m.body) = true ∧
    meets (playing slotA) .resume (resumeBody 7 0) .dispatch (fun m u => !resumeRefused m.body && u.slots[(7 : SlotNo)].state ≠ .idle) = true ∧
    meets box .resume (resumeBody 7 0) .dispatch (fun _ u => u.slots[(7 : SlotNo)].resume = none) = true ∧
    meets (playing stopped) .resume (resumeBody 7 15) .dispatch
      (fun m u => !resumeRefused m.body && u.slots[(7 : SlotNo)].owner = some (u.sender m) && u.slots[(7 : SlotNo)].resume.isSome) = true := by
  decide +kernel
def rateBody (slot action : Byte) : List Byte := [slot, action] ++ be 4 50
theorem test_ratePremises : [0, 1, 2, 3, 4].all (fun a =>
    meets box .rate (rateBody 8 a) .dispatch (fun m _ => 7 < byteAt m.body 0 && m.body.length = 6) &&
    meets box .rate (rateBody 7 a) .dispatch (fun m u => u.slots[(7 : SlotNo)].owner ≠ some (u.sender m)) &&
    meets (playing stopped) .rate (rateBody 7 a) .dispatch (fun m u => u.slots[(7 : SlotNo)].owner = some (u.sender m) && !u.slots[(7 : SlotNo)].runs) &&
    meets (playing { slotA with pacer := some { pacerA with taperStop := true } }) .rate (rateBody 7 a) .dispatch
      (fun _ u => u.slots[(7 : SlotNo)].play?.any fun q => q.p.taperStop) &&
    meets (playing slotA) .rate (rateBody 7 a) .dispatch
      (fun _ u => u.slots[(7 : SlotNo)].runs && u.slots[(7 : SlotNo)].play?.any fun q => !q.p.taperStop)) = true := by decide +kernel
theorem test_rateAction5 : meets (playing slotA) .rate (rateBody 7 5) .dispatch
      (fun m u => u.slots[(7 : SlotNo)].owner = some (u.sender m) && 4 < byteAt m.body 1 && m.body.length = 6) = true ∧
    meets box .rate (rateBody 7 5) .dispatch (fun m u => u.slots[(7 : SlotNo)].owner ≠ some (u.sender m)) = true ∧
    meets box .rate (rateBody 8 5) .dispatch (fun m _ => 7 < byteAt m.body 0) = true := by decide +kernel
theorem test_rateUpdatePremises : let q : Play := { x := xfer, p := pacerA, strained := false }
    q.x.floor ≤ q.p.rate ∧ q.x.floor ≤ q.ceiling ∧ q.x.floor ≤ q.targetRate ∧ q.rateUpdate.p.rate = 10 ∧
    max q.x.floor (max 8 (min 100000 8)) < q.p.rate ∧ q.p.rate ≤ max q.x.floor (max 8 (min 100000 9)) := by decide +kernel
def nexted : Slot := { slotA with next := some xfer }
theorem test_slotControlPremises :
    [Kind.dropNext, .stop, .taperStop].all (fun k => meets box k [8] .dispatch (fun m _ => 7 < byteAt m.body 0) &&
      meets box k [7] .dispatch (fun m u => u.slots[(7 : SlotNo)].owner ≠ some (u.sender m)) &&
      meets (playing stopped) k [7] .dispatch (fun m u => u.slots[(7 : SlotNo)].owner = some (u.sender m) && u.slots[(7 : SlotNo)].state = .idle) &&
      meets (playing slotA) k [7] .dispatch (fun _ u => u.slots[(7 : SlotNo)].runs && u.slots[(7 : SlotNo)].next = none &&
        u.slots[(7 : SlotNo)].play?.any fun q => q.p.rate ≠ q.x.floor) &&
      meets (playing { slotA with pacer := some { pacerA with rate := 8 } }) k [7] .dispatch
        (fun _ u => u.slots[(7 : SlotNo)].play?.any fun q => q.p.rate = q.x.floor) &&
      meets (playing nexted) k [7] .dispatch (fun _ u => u.slots[(7 : SlotNo)].next = some xfer)) = true := by decide +kernel
theorem test_taperNextPremises : [8, 9].all (fun r =>
    meets (playing { nexted with pacer := some { pacerA with rate := r } }) .taperStop [7] .dispatch (fun m u =>
      u.slots[(7 : SlotNo)].owner = some (u.sender m) && u.slots[(7 : SlotNo)].runs && u.slots[(7 : SlotNo)].next = some xfer &&
        u.slots[(7 : SlotNo)].play?.any fun q => q.p.rate = r)) = true := by decide +kernel
/-- The end of a transfer: STOPPED drops the next record and keeps what was left; DONE promotes it (R138). -/
theorem test_ends : let u := (carryOut (.endTail 7 .stopped) (playing nexted)).1
    let v := (carryOut (.endTail 7 .done) (playing nexted)).1
    let w := (carryOut (.endTransfer 7 .lost) (playing nexted)).1
    u.slots[(7 : SlotNo)].state = .idle ∧ u.slots[(7 : SlotNo)].resume.isSome = true ∧ u.slots[(7 : SlotNo)].next = none ∧
    u.link.control.length = 1 ∧ v.slots[(7 : SlotNo)].state = .running ∧ v.slots[(7 : SlotNo)].tagCounter = 2 ∧
    w.slots[(7 : SlotNo)].interval = none ∧ (playing Slot.reset).slots[(7 : SlotNo)].state = .idle := by decide +kernel
theorem test_retargetPremises : meets box .retarget ([8] ++ be 8 1) .dispatch (fun m _ => 7 < byteAt m.body 0) = true ∧
    meets (playing stopped) .retarget ([7] ++ be 8 1) .dispatch (fun _ u => !u.slots[(7 : SlotNo)].runs) = true ∧
    meets (playing slotA) .retarget ([7] ++ be 8 0) .dispatch (fun m u => u.slots[(7 : SlotNo)].runs && field m.body 1 8 = 0) = true ∧
    meets (playing { slotA with pacer := some { pacerA with sent := 3 } }) .retarget ([7] ++ be 8 3) .dispatch
      (fun _ u => min 3 (((u.obj? 1).map (·.total)).getD 0) ≤ u.slots[(7 : SlotNo)].sent) = true ∧
    meets (playing { slotA with pacer := some { pacerA with sent := 3 } }) .retarget ([7] ++ be 8 4) .dispatch
      (fun _ u => u.slots[(7 : SlotNo)].sent < min 4 (((u.obj? 1).map (·.total)).getD 0)) = true := by decide +kernel
theorem test_groupPremises : meets (playing slotA) .allStop [] .dispatch (fun _ _ => true) = true ∧
    [Kind.groupGo, .groupHalt, .groupCall, .haltCall].all (fun k => [0, 1, 15, 16].all fun g =>
      meets (playing { slotA with state := .primed }) k [g] .dispatch fun _ _ => true) = true := by decide +kernel
def primed : Slot := { slotA with state := .primed, primedAt := some 0, cur := some { xfer := { xfer with group := 3 }, tag := 1, nextDropped := false } }
theorem test_groupGo : (after (.groupGo 2) (carry (playing primed) 0x40 [3])).slots[(7 : SlotNo)].state = .running ∧
    (after (.groupGo 2) (carry (playing primed) 0x40 [4])).slots[(7 : SlotNo)].state = .primed := by decide +kernel
def reportBody (slot : Byte) (tag : Nat) : List Byte := [slot] ++ be 2 tag ++ be 8 0
theorem test_viewReportPremises : meets box .viewReport (reportBody 8 1) .dispatch (fun m _ => 7 < byteAt m.body 0) = true ∧
    meets (playing slotA) .viewReport (reportBody 7 1) .dispatch (fun m u => u.reportTaken m 7) = true ∧
    meets (playing slotA) .viewReport (reportBody 7 2) .dispatch (fun m u => !u.reportTaken m 7) = true := by decide +kernel
theorem test_tracker : (Tracker.fresh.count true).inBand = 1 ∧ (Tracker.fresh.count false).judge false 1 1 = .strained ∧
    (Tracker.fresh.count true).judge true 1 1 = .steady ∧ (Tracker.fresh.count true).judge true 2 1 = .opened := by decide
def tapering : Slot := { slotA with pacer := some { pacerA with taperStop := true, phase := .falling } }
def stalled (st : PosState) : Slot :=
  { slotA with state := .stalled, stallStart := some 0, window := [{ place := 0, offset := 0, name := 77, length := 9, state := st }] }
theorem test_intervalPremises :
    quiet (playing slotA) 1 (fun s => s.slots[(7 : SlotNo)].play?.any fun q => !q.taperCheck.rateUpdate.p.taperStop) = true ∧
    quiet (playing tapering) 1 (fun s => s.slots[(7 : SlotNo)].play?.any fun q =>
      q.taperCheck.rateUpdate.p.taperStop && q.taperCheck.rateUpdate.p.rate = q.x.floor) = true ∧
    quiet (playing (stalled (.lost none))) 1 (fun s => s.slots[(7 : SlotNo)].segmentLost 0 9) = true ∧
    quiet (playing (stalled .entryWait)) 1 (fun s => !s.slots[(7 : SlotNo)].segmentLost 0 9 && !s.slots[(7 : SlotNo)].segmentReady 0 9) = true ∧
    quiet (playing (stalled (.staging [2]))) 1 (fun s => s.slots[(7 : SlotNo)].segmentReady 0 9) = true ∧
    quiet (playing slotA) 0 (fun s => s.slots[(7 : SlotNo)].interval = some 1) = true := by decide +kernel
theorem test_slotTimerPremises : quiet (playing (stalled .entryWait)) 20000 (fun s => s.slots[(7 : SlotNo)].stallStart = some 0) = true ∧
    quiet (playing primed) 60000 (fun s => s.slots[(7 : SlotNo)].state = .primed && s.slots[(7 : SlotNo)].primedAt = some 0) = true ∧
    quiet (playing stopped) 30000 (fun s => s.slots[(7 : SlotNo)].resume.isSome) = true := by decide +kernel
theorem test_resumeExpiry : (after (.resumeRecordExpiry 30000 7) (playing stopped)).slots[(7 : SlotNo)].owner = none ∧
    (after (.resumeRecordExpiry 29999 7) (playing stopped)).slots[(7 : SlotNo)].owner = some 0 := by decide +kernel

/-! ## Stripes, journal, DRAM port -/

def block : Block := { seq := 1, records := [], closed := false, opened := 0, pending := [], offered := false }
def stripeA : Stripe := { newStripe with phase := .parity, parity := some [1] }
def jobOf (k : JobKind) : Job :=
  { id := 2, kind := k, stripe := 0, target := 0, length := 1, place := some 0, sources := [(1, .landed)], stage := .computing }
theorem test_storingPremises : quiet { box with buf.blocks := [block] } 200 (fun s => s.openBlock = some block) = true ∧
    quiet box 0 (fun s => s.openBlock = none) = true ∧ quiet { box with store.closeTimer := some 2000 } 2000 (fun _ => true) = true ∧
    quiet { box with store.parityList := [0] } 0 (fun s => s.store.xorBusy = none && s.store.reconList = []) = true ∧
    quiet { box with store.parityList := [0], store.reconList := [2], store.reconLast := true } 0 (fun s => s.store.xorBusy = none) = true ∧
    quiet { box with store.reconList := [2], store.parityList := [0] } 0 (fun s => !s.store.reconLast) = true ∧
    quiet { box with store.table := [(0, stripeA)], store.xorBusy := some (.parity 0) } 0
      (fun s => s.stripe? 0 = some stripeA && stripeA.state = .filling && stripeA.phase = .parity) = true ∧
    [JobKind.read 4, .repair 4, .rebuild].all (fun k =>
      quiet { box with store.jobs := [jobOf k], store.xorBusy := some (.recon 2), store.members := [{ bay := some 0, cond := .rebuilding }] } 0
        fun s => s.job? 2 = some (jobOf k) && s.bayOf 0 = some 0) = true ∧
    quiet { box with buf.port := { waiting := [(.xor, 5000)], turn := some .xor, last := .tables } } 0 (fun _ => true) = true ∧
    quiet { box with store.parityList := [0], store.table := [(0, stripeA)] } 0 (fun s => s.stripe? 0 = some stripeA) = true ∧
    quiet { box with store.reconList := [2], store.jobs := [jobOf .rebuild] } 0 (fun s => s.job? 2 = some (jobOf .rebuild)) = true := by
  decide +kernel
/-- In DEEP a transfer longer than a turn goes on and no other is served; an idle port serves what is issued (R90). -/
theorem test_dramDeep : let s := { box with buf.port := { waiting := [(.xor, 5000), (.lane0, 1)], turn := some .xor, last := .tables } }
    (after (.dramTurnEnd 0) { s with power.state := .deep }).buf.port.turn = some .xor ∧
    (after (.dramTurnEnd 0) (after (.dramTurnEnd 0) { s with power.state := .deep })).buf.port.turn = none ∧
    (after (.dramTurnEnd 0) s).buf.port.turn = some .lane0 ∧ (box.issue .lane0 1).buf.port.turn = some .lane0 := by decide +kernel
/-- A job taken issues its reads and its write (R100). -/
theorem test_xorTransfers : (after (.xorJobTake 0) { box with store.reconList := [2], store.jobs := [jobOf .rebuild] }).buf.port.waiting =
    [(.xor, 1), (.xor, 1)] := by decide +kernel
theorem test_dramTurn : (after (.dramTurnEnd 0) { box with buf.port := { waiting := [(.xor, 5000)], turn := some .xor, last := .tables } }).buf.port =
    { waiting := [(.xor, 904)], turn := some .xor, last := .xor } := by decide +kernel

/-! ## Disks and power -/

def flying (c : DiskCmd) (attempt : Nat) : Bay :=
  { Bay.reset true with
    power := true, state := .member, substate := some .active, member := some 0, flight := some { cmd := c, attempt := attempt, issued := 0 } }
def bayed (x : Bay) : State := { box with bays := box.bays.set 3 x, store.jobs := [jobOf .rebuild] }
def labelA : Label := { boxTag := 0, storeId := 1, generation := 1, members := 1, own := 0, conds := [0, 1, 1, 1], stripes := 1 }
theorem test_diskEndPremises : [DiskCmd.readSlot 0 1 (.copy 4), .readSlot 0 1 (.source 2 1), .writeSlot 0 (.writeOut 0 [1] 1),
      .writeSlot 0 (.rewrite 2), .writeSlot 0 (.rebuild 2), .writeJournal 0 1 .zeros, .readJournal 0 1 .block, .labelWrite labelA, .spinDown].all
      (fun c => quiet (bayed (flying c 1)) 0 fun s => s.bays[(3 : BayNo)].flight.any fun f => f.cmd = c) = true ∧
    (bayed (flying .spinDown 1)).job? 2 = some (jobOf .rebuild) ∧ quiet box 0 (fun s => s.bays[(3 : BayNo)].flight = none) = true := by
  decide +kernel
theorem test_attemptPremises : quiet (bayed (flying .spinDown 1)) 10000 (fun s => s.bays[(3 : BayNo)].flight.any fun f => f.attempt = 1) = true ∧
    quiet (bayed (flying .spinDown 2)) 10000 (fun s => s.bays[(3 : BayNo)].state = .member) = true ∧
    quiet (bayed { flying .labelRead 2 with state := .empty }) 9999 (fun s => s.bays[(3 : BayNo)].state ≠ .member) = true := by decide +kernel
/-- A report for attempt 1 that comes while attempt 2 is in flight is ignored (R120); in DEEP none is taken (R124). -/
theorem test_lateReport : (after (.spinDownDone 5 ⟨3, 1⟩) (bayed (flying .spinDown 2))).bays[(3 : BayNo)].flight.isSome = true ∧
    (after (.spinDownDone 5 ⟨3, 2⟩) (bayed (flying .spinDown 2))).bays[(3 : BayNo)].flight = none ∧
    (after (.commandAttemptFailed 5 ⟨3, 1⟩) (bayed (flying .labelRead 1))).bays[(3 : BayNo)].flight =
      some { cmd := .labelRead, attempt := 2, issued := 5 } ∧
    (after (.commandTimeout 10000 3) { bayed (flying .labelRead 1) with power.state := .deep }).bays[(3 : BayNo)].flight =
      some { cmd := .labelRead, attempt := 1, issued := 0 } := by decide +kernel
def stored (cs : List MemberCond) (p : Option Nat) : State :=
  { box with store.members := cs.map (fun c => { bay := none, cond := c }), store.pointer := p }
/-- Members for each case of R92 and R93. -/
theorem test_memberPremises : (stored [.ok, .failed] none).member? 2 = none ∧ (stored [.ok, .failed] none).condOf 1 = some .failed ∧
    (stored [.ok, .rebuilding] (some 0)).rebuildingMember = some 1 ∧ (stored [.ok, .ok] none).tableCond = .whole ∧
    (stored [.failed, .failed] none).tableCond = .broken ∧ (stored [.ok, .rebuilding] (some 0)).tableCond = .degraded ∧
    (carryOut (.memberFailed 0) (stored [.ok, .rebuilding] (some 0))).1.tableCond = .broken ∧
    (carryOut (.memberFailed 0) (stored [.ok, .ok] none)).1.tableCond = .degraded := by decide +kernel
/-- A REBUILDING member beside a FAILED one rebuilds what it can: a stripe whose step needs the FAILED member is waited for
(R113, R191). -/
theorem test_blockedRebuild :
    let s : State := { stored [.ok, .failed, .rebuilding] (some 0) with store.table := [(0, { newStripe with state := .held, live := 1 })] }
    s.tableCond = .degraded ∧ s.stepBlocked 0 2 = true ∧ carryOut .rebuildStep s = (s, []) := by decide +kernel
/-- A halted rebuild leaves no write of its step waiting (R113). -/
theorem test_haltedRebuild :
    let s : State := { bayed { flying .spinDown 1 with queue := [.writeSlot 0 (.rebuild 2)] } with store.pointer := some 0 }
    (carryOut .haltRebuild s).1.bays[(3 : BayNo)].queue = [] ∧ (carryOut .haltRebuild s).1.store.jobs = [] := by decide +kernel
/-- While formation's commands wait, no other giver's command joins: the first label is written before a later round's (R188). -/
theorem test_formationOrder :
    let zeros : DiskCmd := .writeJournal 0 1 .zeros
    let full : Bay := { flying .spinDown 1 with queue := List.replicate 32 zeros, kept := [(.startup, .labelWrite labelA)] }
    let s : State := { bayed full with store.members := [{ bay := some 3, cond := .ok }] }
    let u := (carryOut (.offer 3 .stripe (.labelWrite { labelA with generation := 2 })) s).1
    u.offerers 3 = [.giver .startup] ∧
      (u.joinKept 3 .startup).bays[(3 : BayNo)].kept = [(.stripe, .labelWrite { labelA with generation := 2 })] := by decide +kernel
/-- In DEEP the engines are stopped, and no demand is raised (R168). -/
theorem test_enginesStop : quiet { box with power.state := .deep } 0 (fun s => s.power.state = .deep) = true ∧
    (let s : State := { box with power.state := .deep, ingest.queue := [ingestItem], store.reconList := [2], store.jobs := [jobOf .rebuild] }
     let u := after (.xorJobTake 5) (after (.checkLaneTake 4 0 false) s)
     u.ingest.queue = [ingestItem] ∧ u.store.xorBusy = none ∧ (carryOut (.raise .repair) s).1.power.demands = []) := by decide +kernel
/-- At the issue of a piece the next one joins the queue itself, before what its giver keeps (R185). -/
theorem test_nextPiece (s : State) (m k : Nat) (c : Checkpoint) (b : BayNo) (hc : s.journal.checkpoint = some c)
    (hb : s.bayOf m = some b) (hm : (c.members.any fun x => x.1 = m) = true) (hk : k + 1 < pieceCount c) :
    (offerPiece m (k + 1) s).2 = [] ∧ (offerPiece m (k + 1) s).1.bays[b].queue = s.bays[b].queue ++
      [.writeJournal (areaOf c.number + 4096 + (k + 1) * 1048576) (min 1048576 (c.image.length - (k + 1) * 1048576))
        (.piece c.number m (k + 1))] := by
  simp [offerPiece, hc, hb, hm, hk, State.updBay, State.markMember, Config.blockBytes, Config.mib]
/-- No close completes with OK while the store is BROKEN (R66). -/
theorem test_brokenClose : let s := running { closingA with reclaimed := true }
    s.closeReady { closingA with reclaimed := true } = true ∧
    ({ s with store.cond := some .broken } : State).closeReady { closingA with reclaimed := true } = false := by decide +kernel
/-- A copy that checks good and whose entry is not STORED is READY and is then dropped (R85). -/
theorem test_refusedCopy : (carryOut (.verified 4) { box with buf.copies := [copyA] }) =
    ({ box with buf.copies := [{ copyA with stage := .ready, work := false }] }, [.dropCopy 4]) := by decide +kernel
def spinning (attempt : Nat) : Bay :=
  { Bay.reset true with power := true, state := .member, substate := some .spinningUp, member := some 0, spin := some { attempt := attempt, start := 0 } }
theorem test_spinPremises : quiet (bayed (spinning 1)) 30000 (fun s => s.bays[(3 : BayNo)].offSince = none) = true ∧
    quiet (bayed (spinning 2)) 29999 (fun s => s.bays[(3 : BayNo)].state = .member) = true ∧
    quiet (bayed { spinning 1 with offSince := some 0 }) 1000 (fun s => s.bays[(3 : BayNo)].offSince = some 0) = true ∧
    quiet (bayed { spinning 1 with offSince := some 0 }) 999 (fun s => s.bays[(3 : BayNo)].spin.isSome) = true ∧
    quiet { bayed (spinning 1) with power.state := .deep } 30000 (fun s => s.power.state = .deep) = true := by decide +kernel
theorem test_powerCycle : let u := after (.spinUpTimeout 30000 3) (bayed (spinning 1))
    u.bays[(3 : BayNo)].power = false ∧
    (after (.powerCycleOn 31000 3) u).bays[(3 : BayNo)].spin = some { attempt := 2, start := 31000 } := by decide +kernel
def probing (c : DiskCmd) (p : Probe) : State := bayed { flying c 1 with state := .empty, substate := none, probe := some p }
theorem test_probePremises :
    quiet (probing .capacityRead .capacity) 0 (fun s => s.bays[(3 : BayNo)].probe = some .capacity && s.bays[(3 : BayNo)].flight.isSome) = true ∧
    quiet (probing .labelRead .label) 0 (fun s => s.power.state ≠ .starting && s.bays[(3 : BayNo)].flight.isSome) = true ∧
    quiet { probing .labelRead .label with power.state := .starting } 0 (fun s => s.bays[(3 : BayNo)].flight.isSome) = true ∧
    quiet box 0 (fun s => !s.bays[(3 : BayNo)].present && s.power.state ≠ .starting && s.power.state ≠ .deep) = true ∧
    quiet { box with power.state := .starting } 0 (fun s => !s.bays[(3 : BayNo)].present) = true ∧
    quiet { bayed (flying .spinDown 1) with power.state := .deep } 0 (fun s => s.bays[(3 : BayNo)].present) = true ∧
    quiet (bayed (flying .spinDown 1)) 0 (fun s => s.bays[(3 : BayNo)].present && s.bays[(3 : BayNo)].state = .member) = true ∧
    quiet { box with power.state := .deep } 0 (fun s => !s.bays[(3 : BayNo)].present) = true ∧
    [BayState.blank, .empty].all (fun x => quiet (bayed { Bay.reset true with state := x }) 0 fun s =>
      s.bays[(3 : BayNo)].present && s.bays[(3 : BayNo)].state = x) = true := by decide +kernel
theorem test_insertedInDeep : (after (.diskInserted 4 3 false) { box with power.state := .deep }).bays[(3 : BayNo)].latch =
    some { was := false, other := true } := by decide +kernel
def blankBay : Bay := { Bay.reset true with label := some .blank, capacity := some 2147483648 }
def starting (p : Phase11) : State := { box with power.state := .starting, store.cond := none, loader.phase := p }
/-- Start-up after its probes: too few disks, two fitting ones, and a store found ABSENT (R187, R188, R192). -/
theorem test_startupPremises : bayNos.all (fun b => (starting .probing).bays[b].probe = none) = true ∧
    (starting .probing).trusted = none ∧ (starting .probing).formBays = [] ∧
    ({ starting .probing with bays := Vector.replicate 4 blankBay } : State).formBays.length = 4 ∧
    (carryOut .judgeProbes { starting .probing with bays := box.bays.set 1 { blankBay with probe := some .label } }).2 = [] ∧
    (carryOut .storeAbsent { starting .probing with bays := box.bays.set 1 blankBay }).1.bays[(1 : BayNo)].state = .blank := by decide +kernel
def headerA : Header := { storeId := 1, number := 4, start := 9, length := 1, check := goodCheck }
/-- The load of start-up: an image good and bad, a block taken and not taken, and counts within and past the capacity
(R189, R190). -/
theorem test_loadPremises : bodyCheck ([0].take headerA.length) = headerA.check ∧ bodyCheck ([1].take headerA.length) ≠ headerA.check ∧
    (readBlock 1 9 (blockImage 1 9 []) matches .taken []) = true ∧ (readBlock 1 9 [] matches .stop false) = true ∧
    (carryOut (.loadEnded .image (some [0])) (starting (.loading 0 [(4096, headerA)]))).1.loader.phase = .replay 0 9 ∧
    (carryOut (.loadEnded .image (some [1])) (starting (.loading 0 [(4096, headerA)]))).1.loader.phase = .loading 0 [] ∧
    (carryOut (.loadEnded .block none) (starting (.replay 0 9))).2 = [.loadMember 0] ∧
    (carryOut .endReplay (starting (.replay 0 9))).2 = [.reconcileObjects] ∧
    (carryOut .endReplay { starting (.replay 0 9) with
      loader.image.indexCapacity := 0, journal.tables.chunks := [{ name := 1, length := 1, check := 0, loc := (0, 0), payer := none, lost := false }] }).2 =
      [.storeAbsent] := by decide +kernel
def pressing (level reading : Bool) (p : PowerState) : State :=
  { box with power.state := p, power.power := { level := level, reading := reading, due := some 50 }, power.pairing := { level := level, reading := reading, due := some 50 } }
theorem test_buttonPremises : [PowerState.starting, .awake, .waking, .quiet, .deep].all (fun p =>
      quiet (pressing true false p) 50 (fun s => s.power.power.level && !s.power.power.reading && s.power.state = p)) = true ∧
    quiet (pressing false true .awake) 50 (fun s => !s.power.power.level) = true ∧
    quiet (pressing true false .awake) 49 (fun s => s.power.power.due = some 50) = true ∧
    quiet { box with power.power := { level := false, reading := true, due := none } } 0 (fun s => s.power.power.due = none) = true := by decide +kernel
theorem test_buttonPress : (after (.buttonDebounceExpiry 50 .pairing) (pressing true false .awake)).link.window = some 120050 ∧
    (after (.buttonDebounceExpiry 50 .pairing) (pressing true false .starting)).link.window = none ∧
    (after (.buttonLineChange 60 .power false) (pressing true false .awake)).power.power = { level := false, reading := false, due := none } := by
  decide +kernel
theorem test_powerTimerPremises : quiet { box with power.diskIdle := some 9 } 9 (fun s => s.power.state = .awake) = true ∧
    quiet { box with power.window := some 9, power.state := .quiet } 9 (fun _ => true) = true ∧
    quiet { box with power.deepIdle := some 9 } 9 (fun s => s.power.deepIdle = some 9) = true ∧
    quiet { box with power.diskIdle := some 9, power.window := some 9, power.deepIdle := some 9 } 8 (fun _ => true) = true ∧
    quiet box 0 (fun s => s.power.diskIdle = none && s.power.window = none && s.power.deepIdle = none) = true := by decide +kernel
/-- Into DEEP and out of it: the reserve's pages, and a resume record's time (R140, R175, R176). -/
theorem test_deep : let u := (carryOut .enterDeep { playing stopped with power.state := .quiet, now := 10, buf.reserve := some [1], buf.pool := [(1, .parity)] }).1
    let v := (carryOut .resumeTimers { u with now := 25 }).1
    u.power.state = .deep ∧ u.buf.pool = [] ∧ u.power.deepSince = some 10 ∧ (carryOut (.exitDeep .press) u).1.power.state = .quiet ∧
    v.slots[(7 : SlotNo)].resume.map (·.made) = some 15 ∧ v.power.deepSince = none := by decide +kernel
theorem test_diskIdle : (after (.diskIdleTimer 9) { box with power.diskIdle := some 9 }).power.state = .quiet ∧
    (after (.diskIdleTimer 8) { box with power.diskIdle := some 9 }).power.state = .awake := by decide +kernel

end Sys2Proof.Tests
end

section
/-! SUPPORT and PROOFS. The exchange (Chapter 1): what each of its operations does, said once (kind codes, the checks of R6, the
outcomes of a message, timers, pairing, the transmit arbiter, the buttons, the end of the configuration read), and the statements
about it; and the invariant that every step keeps. -/

namespace Sys2Proof.Machine

/-! ## Kind codes -/

/-- The kind-code table gives every kind a code of its own. -/
@[simp] theorem Kind.ofCode_code (k : Kind) : Kind.ofCode k.code = some k := by
  cases k <;> rfl

theorem Kind.code_injective : Function.Injective Kind.code := fun j k h => by
  simpa using congrArg Kind.ofCode h

theorem Kind.code_inj {j k : Kind} : j.code = k.code ↔ j = k := Kind.code_injective.eq_iff

theorem isKind_of_kind {m : Msg} {k : Kind} (hk : m.kind = k.code) : isKind k m = true := decide_eq_true hk

theorem Msg.asksPresence_iff {m : Msg} {k : Kind} (hk : m.kind = k.code) :
    m.asksPresence = true ↔ k = .hello ∨ k = .query := by
  simp [Msg.asksPresence, hk, Kind.code_inj]

/-- A message of a kind outside the table is malformed (R4). -/
theorem Msg.malformed_of_unknown {m : Msg} (hk : Kind.ofCode m.kind = none) : m.malformed = true := by
  simp [Msg.malformed, hk]

theorem Kind.tagged_iff (k : Kind) :
    k.tagged = true ↔ ¬(k = .hello ∨ k = .pairAsk ∨ k = .pairConfirm) ∧ ¬(k = .groupGo ∨ k = .groupHalt) := by
  cases k <;> decide

/-! ## The checks of R6 -/

/-- An answered kind is refused and an unanswered one dropped. -/
theorem Gate.refusing_kind {n status : Nat} {k : Kind} (hk : n = k.code) :
    Gate.refusing (Kind.ofCode n) status = if k.unanswered then .drop else .refuse status := by
  rw [hk, Kind.ofCode_code]
  rfl

/-- Step 1 of R6. -/
theorem State.gate_of_deep {s : State} (m : Msg) (hp : s.power.state = .deep) :
    s.gate m = if (s.peerOf m.src.mac).isSome then .leaveDeep else .drop := if_pos hp

/-- Step 2 of R6. -/
theorem State.gate_of_starting {s : State} (m : Msg) (hp : s.power.state = .starting) :
    s.gate m = if m.asksPresence then .dispatch else Gate.refusing (Kind.ofCode m.kind) stStarting := by
  simp [State.gate, hp]

section
variable {s : State} {m : Msg} (hd : s.power.state ≠ .deep) (hs : s.power.state ≠ .starting)
include hd hs

/-- Step 3 of R6. -/
theorem State.gate_of_malformed (hm : m.malformed = true) :
    s.gate m = Gate.refusing (Kind.ofCode m.kind) stBadForm := by
  simp [State.gate, hd, hs, hm]

/-- Step 4 of R6. -/
theorem State.gate_of_absent (hm : m.malformed = false) (ha : s.store.cond = some .absent) :
    s.gate m = if m.asksPresence then .dispatch else Gate.refusing (Kind.ofCode m.kind) stDiskFault := by
  simp [State.gate, hd, hs, hm, State.absent, ha]

/-- A well-formed message to a store that is not ABSENT comes to steps 5 to 7 of R6. -/
theorem State.gate_of_wellFormed {k : Kind} (hk : m.kind = k.code) (hm : m.malformed = false)
    (ha : s.store.cond ≠ some .absent) : s.gate m = s.gateKind m k := by
  simp [State.gate, hd, hs, hm, State.absent, ha, hk]

end

/-- HELLO, PAIR-ASK and PAIR-CONFIRM pass step 5 of R6 from any sender. -/
theorem State.gateKind_of_open (s : State) (m : Msg) {k : Kind} (hk : k = .hello ∨ k = .pairAsk ∨ k = .pairConfirm) :
    s.gateKind m k = .dispatch := by
  simp [State.gateKind, or_assoc, hk]

/-- GROUP-GO and GROUP-HALT pass step 5 of R6 from an enrolled MAC address. -/
theorem State.gateKind_of_group (s : State) (m : Msg) {k : Kind} (hk : k = .groupGo ∨ k = .groupHalt) :
    s.gateKind m k = if (s.peerOf m.src.mac).isSome then .dispatch else .drop := by
  rcases hk with rfl | rfl <;> rfl

/-- Steps 5 to 7 of R6 for the kinds identified by their peer tag. -/
theorem State.gateKind_of_tagged (s : State) (m : Msg) {k : Kind} (hk : k.tagged = true) :
    s.gateKind m k = if s.tagMatches m = false then (if k.unanswered then .drop else .refuse stNotPaired)
      else if k.allows (s.senderRoles m) then .dispatch else if k.unanswered then .drop else .refuse stNotAllowed := by
  obtain ⟨hopen, hgroup⟩ := k.tagged_iff.mp hk
  have hsteps : s.gateKind m k = if !s.tagMatches m then Gate.refusing (some k) stNotPaired
      else if !k.allows (s.senderRoles m) then Gate.refusing (some k) stNotAllowed else .dispatch := by
    simp [State.gateKind, or_assoc, hopen, hgroup]
  rw [hsteps]
  by_cases ht : s.tagMatches m = false
  · simp [ht, Gate.refusing]
  · by_cases ha : k.allows (s.senderRoles m) = true <;> simp [ht, ha, Gate.refusing]

/-- A well-formed HELLO passes the checks of R6 in every power state but DEEP (R19). -/
theorem State.gate_hello {s : State} {m : Msg} (hk : m.kind = Kind.hello.code) (hm : m.malformed = false)
    (hd : s.power.state ≠ .deep) : s.gate m = .dispatch := by
  have hask : m.asksPresence = true := (Msg.asksPresence_iff hk).mpr (.inl rfl)
  by_cases hs : s.power.state = .starting
  · rw [State.gate_of_starting m hs, if_pos hask]
  · by_cases ha : s.store.cond = some .absent
    · rw [State.gate_of_absent hd hs hm ha, if_pos hask]
    · rw [State.gate_of_wellFormed hd hs hk hm ha, State.gateKind_of_open s m (.inl rfl)]

/-! ## The outcomes of a message -/

/-- A message that finds the box in DEEP and comes from an enrolled MAC address brings the box out of DEEP (R176). -/
theorem message_leavesDeep {s : State} {t : Nat} {m : Msg} {mine : Msg → Bool} {act : Msg → State → Work}
    (h : s.Settled t) (hb : s.Brings t m .leaveDeep) (hm : mine m = true) :
    s.message t mine act = .next
      (State.finish (s.met t m, [.exitDeep (if m.kind = Kind.wake.code then .wake else .message)])) := by
  unfold State.message
  rw [event_of_settled h]
  unfold State.takeMessage State.met
  rw [hb.head]
  simp only [hm, hb.gate, if_true]

/-- The row of a kind takes every message of that kind: a RATE goes to one of five rows by its action (assumption log 15). -/
theorem rowOf_takes (s : State) (t : Nat) {m : Msg} {k : Kind} (hk : m.kind = k.code) :
    ∃ (mine : Msg → Bool) (act : Msg → State → Work), mine m = true ∧ exec (rowOf m t k) s = s.message t mine act := by
  cases k
  case rate =>
    by_cases h1 : isRate 1 m = true
    · exact ⟨isRate 1, rateAction Play.jumpPeak, h1, by simp only [rowOf, h1, if_true]; rfl⟩
    by_cases h2 : isRate 2 m = true
    · exact ⟨isRate 2, rateAction Play.easeFloor, h2, by simp only [rowOf, h1, h2, if_true]; rfl⟩
    by_cases h3 : isRate 3 m = true
    · exact ⟨isRate 3, rateAction Play.easePeak, h3, by simp only [rowOf, h1, h2, h3, if_true]; rfl⟩
    by_cases h4 : isRate 4 m = true
    · exact ⟨isRate 4, fun m => rateAction (fun q => q.retune (field m.body 2 4)) m, h4,
        by simp only [rowOf, h1, h2, h3, h4, if_true]; rfl⟩
    · exact ⟨isJumpFloor, rateAction Play.jumpFloor, by simp [isJumpFloor, isKind_of_kind hk, h1, h2, h3, h4],
        by simp only [rowOf, h1, h2, h3, h4]; rfl⟩
  all_goals exact ⟨isKind _, _, isKind_of_kind hk, rfl⟩

/-! ## Time -/

/-- A command's time is the state's time, as time does not run back. -/
theorem State.Settled.atTime_now {s : State} {t : Nat} (h : s.Settled t) : (s.atTime t).now = t := max_eq_right h.time

theorem State.Settled.due_atTime_iff {s : State} {t : Nat} (h : s.Settled t) (o : Option Nat) :
    (s.atTime t).due o = true ↔ ∃ e, o = some e ∧ e ≤ t := by
  cases o <;> simp [State.due, h.atTime_now]

/-- A timer that runs expires at its time. -/
theorem State.Settled.due_of_le {s : State} {t e : Nat} {o : Option Nat} (h : s.Settled t) (ho : o = some e) (he : e ≤ t) :
    (s.atTime t).due o = true := (h.due_atTime_iff o).mpr ⟨e, ho, he⟩

/-- A timer that is stopped, or whose time has not come, has not expired. -/
theorem State.Settled.not_due {s : State} {t : Nat} {o : Option Nat} (h : s.Settled t)
    (ho : o = none ∨ ∃ e, o = some e ∧ t < e) : ¬(s.atTime t).due o = true := by
  rw [h.due_atTime_iff]
  rintro ⟨e, rfl, he⟩
  obtain ho | ⟨d, hd, hlt⟩ := ho
  · cases ho
  · cases hd
    omega

/-! ## The invariant -/

/-- The invariant speaks of the Link Front, the Ingest Unit and the Buffer Manager, and of nothing else. -/
theorem State.Inv.of_same {s u : State} (hs : s.Inv) (hlink : u.link = s.link) (hingest : u.ingest = s.ingest)
    (hbuf : u.buf = s.buf) : u.Inv where
  staging := hbuf ▸ hs.staging
  cache := hbuf ▸ hs.cache
  places := hbuf ▸ hs.places
  fifo := hlink ▸ hs.fifo
  control := hlink ▸ hs.control
  asks := hlink ▸ hs.asks
  runs := hingest ▸ hs.runs
  checks := hingest ▸ hs.checks
  blocks := hbuf ▸ hs.blocks

/-- The state in which an event finds the part has the invariant. -/
theorem State.arrive_inv {s : State} (t : Nat) (hs : s.Inv) : (s.arrive t).Inv :=
  (finish_after (w := (({ s with unfinished := [] } : State).atTime t, s.unfinished)) (Keeps.refl _)).inv
    (hs.of_same (u := ({ s with unfinished := [] } : State).atTime t) rfl rfl rfl)

section
variable {s u : State} {t : Nat} (hs : s.Inv)
include hs

/-- An event whose own change keeps the invariant keeps it, since every task does. -/
theorem event_inv {f : State → Work} (hf : ∀ v : State, v.Inv → (f v).1.Inv) (h : s.event t f = .next u) : u.Inv := by
  cases h
  exact (finish_after (Keeps.refl (f (s.arrive t)).1)).inv (hf _ (State.arrive_inv t hs))

/-- An event made of operations that keep what `Keeps` names keeps the invariant. -/
theorem event_inv_of_keeps {f : State → Work} (hf : ∀ {v w : State}, Keeps v w → Keeps v (f w).1)
    (h : s.event t f = .next u) : u.Inv :=
  event_inv hs (fun v => (hf (Keeps.refl v)).inv) h

/-- The same for an event that leaves no task. -/
theorem event_inv_of_keeps_plain {g : State → State} (hg : ∀ {v w : State}, Keeps v w → Keeps v (g w))
    (h : s.event t (fun v => (g v, [])) = .next u) : u.Inv :=
  event_inv_of_keeps hs hg h

/-- A message whose block keeps what `Keeps` names keeps the invariant, whatever R6 makes of it. -/
theorem message_inv {mine : Msg → Bool} {act : Msg → State → Work}
    (hact : ∀ {v w : State} (m : Msg), Keeps v w → Keeps v (act m w).1) (h : s.message t mine act = .next u) : u.Inv :=
  event_inv_of_keeps hs (State_takeMessage_after fun m _ => hact m) h

end

/-- The state with another configuration image (R194). -/
def State.withImage (s : State) (image : ConfigImage) : State := { s with loader.image := image }

/-- The invariant does not speak of the configuration image. -/
theorem State.Inv.withImage {s : State} (hs : s.Inv) (image : ConfigImage) : (s.withImage image).Inv :=
  hs.of_same rfl rfl rfl

theorem configReadEnd_inv (answer : Option (List Byte)) {s : State} (hs : s.Inv) : (configReadEnd answer s).1.Inv := by
  unfold configReadEnd
  split
  · exact hs
  · exact hs.withImage _

/-- Every command keeps the invariant. -/
theorem exec_inv {s u : State} (hs : s.Inv) (c : Instr) (h : exec c s = .next u) : u.Inv := by
  cases c with
  | coldReset t straps present => exact event_inv hs (fun _ _ => cleared_inv ..) h
  | warmReset t => exact event_inv hs (fun _ _ => cleared_inv ..) h
  | configReadEnd t answer => exact event_inv hs (fun _ => configReadEnd_inv answer) h
  | capacityReadEnd t report capacity => exact event_inv_of_keeps hs (capacityReadEnd_after _ _ _) h
  | labelDone t report data => exact event_inv_of_keeps hs (labelDone_after _ _ _) h
  | frameArrival t frame => exact event_inv_of_keeps_plain hs (State_takeIn_after frame) h
  | frameDropped t => exact event_inv_of_keeps_plain hs State_dropFrame_after h
  | arpRequest t => exact event_inv_of_keeps_plain hs State_answerArp_after h
  | hello t => exact message_inv hs hello_after h
  | pairAsk t => exact message_inv hs pairAsk_after h
  | pairConfirm t => exact message_inv hs pairConfirm_after h
  | unpair t => exact message_inv hs unpair_after h
  | query t => exact message_inv hs query_after h
  | wake t => exact message_inv hs wake_after h
  | runOpen t => exact message_inv hs runOpen_after h
  | runClose t => exact message_inv hs runClose_after h
  | runAbort t => exact message_inv hs runAbort_after h
  | offer t => exact message_inv hs offer_after h
  | chunk t => exact message_inv hs chunk_after h
  | arrivalTimeout t record => exact event_inv_of_keeps hs (arrivalTimeout_after record) h
  | runIdleTimeout t run => exact event_inv_of_keeps hs (runIdleTimeout_after run) h
  | checkLaneTake t lane verifyFirst => exact event_inv_of_keeps_plain hs (State_laneTake_after lane verifyFirst) h
  | checkResultIngest t lane => exact event_inv_of_keeps hs (checkResultIngest_after lane) h
  | checkResultVerify t lane => exact event_inv_of_keeps hs (checkResultVerify_after lane) h
  | objectBegin t => exact message_inv hs objectBegin_after h
  | objectAppend t => exact message_inv hs objectAppend_after h
  | objectFinish t => exact message_inv hs objectFinish_after h
  | objectDelete t => exact message_inv hs objectDelete_after h
  | objectInfo t => exact message_inv hs objectInfo_after h
  | albumCreate t => exact message_inv hs albumCreate_after h
  | albumAdd t => exact message_inv hs albumAdd_after h
  | albumRemove t => exact message_inv hs albumRemove_after h
  | albumDrop t => exact message_inv hs albumDrop_after h
  | albumList t => exact message_inv hs albumList_after h
  | play t => exact message_inv hs play_after h
  | resume t => exact message_inv hs resume_after h
  | jumpFloor t => exact message_inv hs (rateAction_after _) h
  | jumpPeak t => exact message_inv hs (rateAction_after _) h
  | easeFloor t => exact message_inv hs (rateAction_after _) h
  | easePeak t => exact message_inv hs (rateAction_after _) h
  | retune t => exact message_inv hs (fun m => rateAction_after _ m) h
  | retarget t => exact message_inv hs retarget_after h
  | dropNext t => exact message_inv hs dropNext_after h
  | stop t => exact message_inv hs stop_after h
  | taperStop t => exact message_inv hs taperStop_after h
  | allStop t => exact message_inv hs allStop_after h
  | viewReport t => exact message_inv hs viewReport_after h
  | groupCall t => exact message_inv hs groupCall_after h
  | haltCall t => exact message_inv hs haltCall_after h
  | groupGo t => exact message_inv hs groupGo_after h
  | groupHalt t => exact message_inv hs groupHalt_after h
  | transmitArbiter t => exact event_inv_of_keeps_plain hs State_arbitrate_after h
  | announceTimer t => exact event_inv_of_keeps_plain hs State_announceExpiry_after h
  | pairingWindowExpiry t => exact event_inv_of_keeps_plain hs State_windowExpiry_after h
  | pendingAskExpiry t mac => exact event_inv_of_keeps_plain hs (State_askExpiry_after mac) h
  | pacingInterval t slot => exact event_inv_of_keeps hs (pacingInterval_after slot) h
  | stalledInterval t slot => exact event_inv_of_keeps hs (stalledInterval_after slot) h
  | stallTimeout t slot => exact event_inv_of_keeps hs (stallTimeout_after slot) h
  | resumeRecordExpiry t slot => exact event_inv_of_keeps hs (resumeExpiry_after slot) h
  | primedTimeout t slot => exact event_inv_of_keeps hs (primedTimeout_after slot) h
  | blockTimer t => exact event_inv_of_keeps hs blockExpiry_after h
  | closeTimer t => exact event_inv_of_keeps hs closeExpiry_after h
  | xorJobTake t => exact event_inv_of_keeps_plain hs State_takeJob_after h
  | parityJobEnd t => exact event_inv_of_keeps hs parityJobEnd_after h
  | reconstructionJobEnd t => exact event_inv_of_keeps hs reconstructionJobEnd_after h
  | dramTurnEnd t => exact event_inv_of_keeps_plain hs State_dramTurn_after h
  | readSlotDone t report data => exact event_inv_of_keeps hs (readSlotDone_after _ _ _) h
  | writeSlotDone t report => exact event_inv_of_keeps hs (writeSlotDone_after _ _) h
  | readJournalDone t report data => exact event_inv_of_keeps hs (readJournalDone_after _ _ _) h
  | writeJournalDone t report => exact event_inv_of_keeps hs (writeJournalDone_after _ _) h
  | spinDownDone t report => exact event_inv_of_keeps hs (spinDownDone_after _ _) h
  | commandAttemptFailed t report => exact event_inv_of_keeps hs (errorReport_after _ _) h
  | commandTimeout t bay => exact event_inv_of_keeps hs (commandTimeout_after bay) h
  | spinUpReady t bay => exact event_inv_of_keeps hs (spinUpReady_after bay) h
  | spinUpTimeout t bay => exact event_inv_of_keeps hs (spinUpTimeout_after bay) h
  | powerCycleOn t bay => exact event_inv_of_keeps hs (powerCycleOn_after bay) h
  | diskInserted t bay same => exact event_inv_of_keeps hs (diskInserted_after bay same) h
  | diskRemoved t bay => exact event_inv_of_keeps hs (diskRemoved_after bay) h
  | buttonLineChange t button pressed => exact event_inv_of_keeps_plain hs (State_lineChange_after button pressed) h
  | buttonDebounceExpiry t button => exact event_inv_of_keeps hs (debounceExpiry_after button) h
  | diskIdleTimer t => exact event_inv_of_keeps hs diskIdleExpiry_after h
  | qualifierWindowExpiry t => exact event_inv_of_keeps_plain hs State_qualifierExpiry_after h
  | deepIdleTimer t => exact event_inv_of_keeps hs deepIdleExpiry_after h
  | unknownKindCode t => exact message_inv hs unknownKind_after h

/-- Settles O4: by the command at the front of the queue; on an empty queue only the clock moves. -/
theorem everyStepKeepsTheInvariant : Obligations.EveryStepKeepsTheInvariant := by
  intro s u hs h
  unfold step at h
  split at h
  · cases h
    exact hs.of_same rfl rfl rfl
  · rename_i c rest _
    have hrest : State.Inv { s with pending := rest } := hs.of_same rfl rfl rfl
    exact exec_inv hrest c h

/-! ## What the exchange's operations do -/

/-- R1, by the admission at the port and the places of the FIFO. -/
theorem State.takeIn_eq (s : State) (f : List Byte) :
    s.takeIn f =
      if s.loader.settled = true ∧ frameAdmitted s.loader.image.mac f = true ∧ s.link.fifo.length < Config.fifoPlaces then
        { s with link.fifo := s.link.fifo ++ [f] } else s := by
  simp [State.takeIn, and_assoc]

theorem State.dropFrame_of_drop {s : State} (hf : s.headFrame = some .drop) : s.dropFrame = s.popFrame := by
  unfold State.dropFrame
  rw [hf]

theorem State.answerArp_of_arp {s : State} {mac : Mac} {ip : Ip} (hf : s.headFrame = some (.arp mac ip)) :
    s.answerArp = s.popFrame.send (.arpReply mac ip) := by
  unfold State.answerArp
  rw [hf]

/-- R12: the first case that applies gives the verdict. -/
theorem pairAsk_eq (m : Msg) (s : State) :
    pairAsk m s =
      (if s.link.window = none then s.reply m stWindowClosed []
       else if (s.peerOf m.src.mac).isSome then s.reply m stDuplicate []
       else if byteAt m.body 0 = 0 ∨ 7 < byteAt m.body 0 then s.reply m stBadRange []
       else if Config.askPlaces ≤ s.link.asks.length then s.reply m stBusy []
       else ({ s with link.asks := s.link.asks ++
          [{ mac := m.src.mac, roles := m.body.getD 0 0, quota := field m.body 1 4, label := (m.body.drop 5).take 32
             asked := s.now }] } : State).reply m stOk [], []) := by
  unfold pairAsk
  simp only [Option.isNone_iff_eq_none, badRoles, Bool.or_eq_true, decide_eq_true_eq]
  split_ifs <;> rfl

/-- R14 without a pending ask. -/
theorem pairConfirm_of_noAsk {m : Msg} {s : State} (ha : s.link.asks.find? (fun a => a.mac = m.src.mac) = none) :
    pairConfirm m s = s.refuse m stNoSuch := by
  unfold pairConfirm
  rw [ha]

/-- A PAIR-CONFIRM takes its ask off the pending ones (R14). -/
def State.takeAsk (s : State) (m : Msg) : State :=
  { s with link.asks := s.link.asks.filter fun b => b.mac ≠ m.src.mac }

/-- R14 with an ask and no FREE entry. -/
theorem pairConfirm_of_full {m : Msg} {s : State} {a : Ask}
    (ha : s.link.asks.find? (fun a => a.mac = m.src.mac) = some a)
    (hn : s.link.peers.toList.findIdx? (·.isNone) = none) : pairConfirm m s = (s.takeAsk m).refuse m stFull := by
  unfold pairConfirm
  simp only [ha, hn]
  rfl

/-- R14 with an ask and a FREE entry. -/
theorem pairConfirm_of_free {m : Msg} {s : State} {a : Ask} {n : Nat}
    (ha : s.link.asks.find? (fun a => a.mac = m.src.mac) = some a)
    (hn : s.link.peers.toList.findIdx? (·.isNone) = some n) : pairConfirm m s = (s.takeAsk m).enrol m a n := by
  unfold pairConfirm
  simp only [ha, hn]
  rfl

/-- R15 for a peer that owns something. -/
theorem unpair_of_owner {m : Msg} {s : State} (ho : s.ownsAnything (s.sender m) = true) :
    unpair m s = s.refuse m stBusy := if_pos ho

/-- R15 for a peer that owns nothing. -/
theorem unpair_of_free {m : Msg} {s : State} (ho : s.ownsAnything (s.sender m) = false) :
    unpair m s =
      let n := s.sender m
      let tag := ((s.peer n).map (·.tag)).getD 0
      let v := (s.unpay n).setPeer n none
      (v, [.append (.peerRemoved n tag), .send (v.replyTo m stOk (be 4 tag))]) := by
  unfold unpair
  simp only [ho, Bool.false_eq_true, if_false]

/-- R46 for an object there is none of. -/
theorem objectInfo_of_none {m : Msg} {s : State} (ho : s.obj? (field m.body 0 4) = none) :
    objectInfo m s = s.refuse m stNoSuch := by
  unfold objectInfo
  rw [ho]

/-- R46 for an object there is. -/
theorem objectInfo_of_some {m : Msg} {s : State} {o : Obj} (ho : s.obj? (field m.body 0 4) = some o) :
    objectInfo m s = (s.reply m stOk (o.report (field m.body 4 2)), []) := by
  unfold objectInfo
  rw [ho]

/-- R54 for an album number out of range. -/
theorem albumList_of_badRange {m : Msg} {s : State} (hr : 63 < byteAt m.body 0) :
    albumList m s = s.refuse m stBadRange := if_pos hr

/-- R54 for an album there is none of. -/
theorem albumList_of_none {m : Msg} {s : State} (hr : byteAt m.body 0 ≤ 63) (ha : s.album? (byteAt m.body 0) = none) :
    albumList m s = s.refuse m stNoSuch := by
  unfold albumList
  simp only [Nat.not_lt.mpr hr, if_false, ha]

/-- R54 for an album there is. -/
theorem albumList_of_some {m : Msg} {s : State} {al : Album} (hr : byteAt m.body 0 ≤ 63)
    (ha : s.album? (byteAt m.body 0) = some al) :
    albumList m s = (s.reply m stOk (al.report (field m.body 1 2)), []) := by
  unfold albumList
  simp only [Nat.not_lt.mpr hr, if_false, ha]

/-- An answer changes the Link Front's control queue and nothing else. -/
theorem State.reply_sameBut (s : State) (m : Msg) (status : Nat) (data : List Byte) : s.SameBut (s.reply m status data) := by
  unfold State.reply
  constructor <;> simp

/-- R17 with a message on the control queue. -/
theorem State.arbitrate_of_control {s : State} {m : OutMsg} {rest : List OutMsg} (hc : s.link.control = m :: rest) :
    s.arbitrate = ({ s with link.control := rest } : State).transmit m := by
  unfold State.arbitrate
  rw [hc]

/-- R17 with an empty control queue and a slot whose turn it is. -/
theorem State.arbitrate_of_slot {s : State} {i : SlotNo} {m : OutMsg} {rest : List OutMsg} (hc : s.link.control = [])
    (hi : (slotsAfter s.link.lastSlot).find? (fun j => !s.slots[j].sendQueue.isEmpty) = some i)
    (hq : s.slots[i].sendQueue = m :: rest) :
    s.arbitrate =
      ({ s.updSlot i (fun x => { x with sendQueue := rest }) with link.lastSlot := i } : State).transmit m := by
  unfold State.arbitrate
  simp only [hc, hi, hq]

/-- R17 with nothing to send. -/
theorem State.arbitrate_of_nothing {s : State} (hc : s.link.control = []) (hq : ∀ i : SlotNo, s.slots[i].sendQueue = []) :
    s.arbitrate = s := by
  have hi : (slotsAfter s.link.lastSlot).find? (fun j => !s.slots[j].sendQueue.isEmpty) = none :=
    List.find?_eq_none.mpr fun i _ => by
      rw [hq i]
      decide
  unfold State.arbitrate
  simp only [hc, hi]

/-- R18 at the announce timer's time. -/
theorem State.announceExpiry_of_due {s : State} (hd : s.due s.link.announce = true) :
    s.announceExpiry = { s.announce with link.announce := some (s.now + Config.announcePeriod) } := if_pos hd

theorem State.announceExpiry_of_not_due {s : State} (hd : ¬s.due s.link.announce = true) : s.announceExpiry = s := if_neg hd

/-- R11 at the pairing window's time. -/
theorem State.windowExpiry_of_due {s : State} (hd : s.due s.link.window = true) : s.windowExpiry = s.closeWindow := if_pos hd

theorem State.windowExpiry_of_not_due {s : State} (hd : ¬s.due s.link.window = true) : s.windowExpiry = s := if_neg hd

/-- R13 at a time. -/
theorem State.askExpiry_eq {s : State} {n : Nat} (mac : Mac) (hn : s.now = n) :
    s.askExpiry mac =
      { s with link.asks := s.link.asks.filter fun a => !(a.mac = mac && a.asked + Config.askLife ≤ n) } := by
  subst hn
  rfl

/-! ## The buttons -/

/-- R177: a level that the line has already. -/
theorem State.lineChange_of_same {s : State} {b : Button} {pressed : Bool} (hl : (s.power.line b).level = pressed) :
    s.lineChange b pressed = s := if_pos hl

/-- R177: a new level starts the debounce anew, or stops it where it is the reading's. -/
theorem State.lineChange_of_new {s : State} {b : Button} {pressed : Bool} (hl : (s.power.line b).level ≠ pressed) :
    s.lineChange b pressed = s.setLine b
      { s.power.line b with
        level := pressed
        due := if (s.power.line b).reading = pressed then none else some (s.now + Config.debounceTime) } := if_neg hl

@[simp] theorem State.setLine_power_state (s : State) (b : Button) (l : Line) :
    (s.setLine b l).power.state = s.power.state := by
  cases b <;> rfl

@[simp] theorem State.setLine_now (s : State) (b : Button) (l : Line) : (s.setLine b l).now = s.now := by
  cases b <;> rfl

/-- R177: the line's debounce has not ended. -/
theorem debounceExpiry_of_not_due {s : State} {b : Button} (hd : ¬s.due (s.power.line b).due = true) :
    debounceExpiry b s = s.idle := if_neg hd

section
variable {s : State}

/-- R177: the reading follows the level, and a change to released is no press. -/
theorem debounceExpiry_of_no_press {b : Button} (hd : s.due (s.power.line b).due = true)
    (hp : ¬((s.power.line b).level = true ∧ (s.power.line b).reading = false)) :
    debounceExpiry b s =
      (s.setLine b { s.power.line b with reading := (s.power.line b).level, due := none }).idle := by
  unfold debounceExpiry
  simp only [hd, if_true, Bool.and_eq_true, Bool.not_eq_true', hp, if_false]

/-- R177: a change to pressed of the pairing button is its press. -/
theorem debounceExpiry_pairing (hd : s.due s.power.pairing.due = true) (hl : s.power.pairing.level = true)
    (hr : s.power.pairing.reading = false) :
    debounceExpiry .pairing s =
      ((s.setLine .pairing { s.power.pairing with reading := s.power.pairing.level, due := none }).pressPairing, []) := by
  simp [debounceExpiry, Power.line, hd, hl, hr]

/-- R177: a change to pressed of the power button is its press. -/
theorem debounceExpiry_power (hd : s.due s.power.power.due = true) (hl : s.power.power.level = true)
    (hr : s.power.power.reading = false) :
    debounceExpiry .power s =
      pressPower (s.setLine .power { s.power.power with reading := s.power.power.level, due := none }) := by
  simp [debounceExpiry, Power.line, hd, hl, hr]

end

/-- R11 by the power state. -/
theorem State.pressPairing_eq {s : State} {p : PowerState} {n : Nat} (hp : s.power.state = p) (hn : s.now = n) :
    s.pressPairing = if p = .starting ∨ p = .deep then s
      else { s with link.window := some (n + s.loader.image.pairingWindow * 1000) } := by
  subst hp hn
  simp [State.pressPairing]

/-- R178 by the power state. -/
theorem finish_pressPower (s : State) :
    (s.power.state = .starting → State.finish (pressPower s) = s) ∧
    (s.power.state = .awake → State.finish (pressPower s) = s.restartDiskIdle.restartDeepIdle) ∧
    (s.power.state = .waking → State.finish (pressPower s) = s.restartDeepIdle) ∧
    (s.power.state = .quiet → State.finish (pressPower s) = State.finish (s.restartDeepIdle, [.momentary])) ∧
    (s.power.state = .deep → State.finish (pressPower s) = State.finish (s, [.exitDeep .press])) := by
  unfold pressPower
  refine ⟨?_, ?_, ?_, ?_, ?_⟩ <;>
    · intro hp
      simp [hp, State.idle]

/-! ## The end of the configuration read -/

/-- R194: the read is over, or no flash is fitted. -/
theorem configReadEnd_of_settled {answer : Option (List Byte)} {s : State}
    (h : s.loader.settled = true ∨ s.loader.straps.flashPresent = false) : configReadEnd answer s = s.idle :=
  if_pos (by simpa using h)

/-- R194: the record, or its absence, gives the image. -/
theorem configReadEnd_of_reading {answer : Option (List Byte)} {s : State} (hs : s.loader.settled = false)
    (hf : s.loader.straps.flashPresent = true) :
    configReadEnd answer s = (s.withImage (budget s.loader.straps (configOf answer)), [.settle]) := by
  simp [configReadEnd, State.withImage, hs, hf]

/-- The state whose ANNOUNCE a settling queues: the configuration is settled and the box is STARTING (R18, R194). -/
def State.settledStarting (s : State) : State :=
  { s with loader.settled := true, loader.phase := .probing, power.state := .starting }

/-- A settling queues the ANNOUNCE of STARTING, starts the announce timer, and goes on to probing (R18, R187, R194). -/
theorem settle_eq (s : State) :
    settle s = ({ s.settledStarting.announce with link.announce := some (s.now + 30000) },
      if s.loader.cold then [.startProbes] else [.judgeProbes]) := by
  have hnow : s.settledStarting.announce.now = s.now := State.send_now _ _
  rw [← hnow]
  rfl

/-- Start-up is at its probes, with these messages on the control queue. -/
structure State.Probing (c : List OutMsg) (s : State) : Prop where
  settled : s.loader.settled = true
  phase : s.loader.phase = .probing
  power : s.power.state = .starting
  control : s.link.control = c

theorem settle_probing (s : State) : (settle s).1.Probing s.settledStarting.announce.link.control := by
  have hloader : s.settledStarting.announce.loader = s.settledStarting.loader := State.send_loader _ _
  have hpower : s.settledStarting.announce.power = s.settledStarting.power := State.send_power _ _
  rw [settle_eq]
  refine ⟨?_, ?_, ?_, rfl⟩
  · show s.settledStarting.announce.loader.settled = true
    rw [hloader]
    rfl
  · show s.settledStarting.announce.loader.phase = .probing
    rw [hloader]
    rfl
  · show s.settledStarting.announce.power.state = .starting
    rw [hpower]
    rfl

theorem settle_bays (s : State) : (settle s).1.bays = s.bays := State.enterPower_bays _ _

/-- Tasks past the bound only wait. -/
theorem State.Probing.runTasks_zero {c : List OutMsg} {s : State} (h : s.Probing c) (ts : List Task) :
    (State.runTasks 0 ts s).Probing c := by
  cases ts with
  | nil => exact h
  | cons => exact ⟨h.settled, h.phase, h.power, h.control⟩

theorem State.Probing.startProbe {c : List OutMsg} {s : State} (h : s.Probing c) (b : BayNo) :
    (startProbe b s).1.Probing c := ⟨h.settled, h.phase, h.power, h.control⟩

theorem startProbe_probe (b : BayNo) (s : State) : (startProbe b s).1.bays[b].probe ≠ none := by
  simp [Machine.startProbe, State.updBay]

/-- While a probe runs, start-up waits for it (R187). -/
theorem judgeProbes_of_probe {s : State} {b : BayNo} (hb : s.bays[b].probe ≠ none) : judgeProbes s = s.idle := by
  have hall : (s.bays.toList.all fun x => x.probe.isNone) = false :=
    List.all_eq_false.mpr ⟨s.bays[b], by simp, by simpa using hb⟩
  unfold judgeProbes
  simp [hall]

/-- Where a probe is begun or runs, start-up comes to wait at its probes. -/
theorem State.Probing.runTasks_probes {c : List OutMsg} (bs : List BayNo) :
    ∀ (n : Nat) {s : State}, s.Probing c → (bs ≠ [] ∨ ∃ b : BayNo, s.bays[b].probe ≠ none) →
      (State.runTasks n (bs.map Task.startProbe ++ [.judgeProbes]) s).Probing c := by
  induction bs with
  | nil =>
    intro n s h hb
    obtain ⟨b, hb⟩ := hb.resolve_left fun hne => hne rfl
    cases n with
    | zero => exact h.runTasks_zero _
    | succ n =>
      rw [List.map_nil, List.nil_append, runTasks_cons]
      show (State.runTasks n ((Machine.judgeProbes s).2 ++ []) (Machine.judgeProbes s).1).Probing c
      rw [judgeProbes_of_probe hb]
      show (State.runTasks n [] s).Probing c
      rwa [runTasks_nil]
  | cons b bs ih =>
    intro n s h _
    cases n with
    | zero => exact h.runTasks_zero _
    | succ n =>
      rw [List.map_cons, List.cons_append, runTasks_cons]
      exact ih n (h.startProbe b) (.inr ⟨b, startProbe_probe b s⟩)

/-- After COLD the probes are begun: start-up waits where a disk is present (R187). -/
theorem State.Probing.runTasks_startProbes {c : List OutMsg} {s : State} (h : s.Probing c) (n : Nat)
    (hb : ∃ b : BayNo, s.bays[b].present = true) : (State.runTasks n [.startProbes] s).Probing c := by
  cases n with
  | zero => exact h.runTasks_zero _
  | succ n =>
    rw [runTasks_cons]
    show (State.runTasks n ((Machine.startProbes s).2 ++ []) (Machine.startProbes s).1).Probing c
    rw [List.append_nil]
    refine State.Probing.runTasks_probes _ n ⟨h.settled, h.phase, h.power, h.control⟩ (.inl ?_)
    obtain ⟨b, hb⟩ := hb
    exact List.ne_nil_of_mem (List.mem_filter.mpr ⟨List.mem_finRange b, hb⟩)

/-- A settling with a disk to probe, or with a probe that runs, ends at the probes (R187, R194). -/
theorem finish_settle_probing {s : State}
    (hb : if s.loader.cold then ∃ b : BayNo, s.bays[b].present = true else ∃ b : BayNo, s.bays[b].probe ≠ none) :
    (State.finish (s, [.settle])).Probing s.settledStarting.announce.link.control := by
  rw [finish_cons]
  show (State.runTasks _ ((Machine.settle s).2 ++ []) (Machine.settle s).1).Probing _
  have hp := settle_probing s
  rw [List.append_nil]
  rw [← settle_bays s] at hb
  have htasks : (Machine.settle s).2 = if s.loader.cold then [.startProbes] else [.judgeProbes] := rfl
  rw [htasks]
  split at hb
  · rename_i hc
    rw [if_pos hc]
    exact hp.runTasks_startProbes _ hb
  · rename_i hc
    rw [if_neg hc]
    exact hp.runTasks_probes [] _ (.inr hb)

/-- What settling does with an image just read, whatever the image. -/
theorem settle_withImage (s : State) (image : ConfigImage) :
    let v := s.withImage image
    carryOut .settle v = ({ v.settledStarting.announce with link.announce := some (v.now + 30000) },
        if s.loader.cold then [.startProbes] else [.judgeProbes]) ∧
      (State.finish (v, [.settle])).loader.image = image ∧
      ((if s.loader.cold then ∃ b : BayNo, s.bays[b].present = true else ∃ b : BayNo, s.bays[b].probe ≠ none) →
        (State.finish (v, [.settle])).Probing v.settledStarting.announce.link.control) :=
  ⟨settle_eq _, (finish_after (w := (s.withImage image, [.settle])) (Keeps.refl _)).image,
    finish_settle_probing (s := s.withImage image)⟩

/-! ## The statements -/

/-- Settles O10: by the two cases of the configuration read and by what a settling leaves to do. -/
theorem configReadSettlesTheImage : Obligations.ConfigReadSettlesTheImage := by
  intro s t answer h
  have hexec : exec (.configReadEnd t answer) s = .next (State.finish (configReadEnd answer (s.atTime t))) :=
    event_of_settled h _
  refine ⟨fun hs => ?skipped, fun hs hf => ?settles, rfl, rfl, fun b => ⟨fun hg => ?bad, fun hg => ?good⟩⟩
  case skipped =>
    rw [hexec, configReadEnd_of_settled (s := s.atTime t) hs]
    rfl
  case settles =>
    rw [configReadEnd_of_reading (s := s.atTime t) hs hf] at hexec
    obtain ⟨hsettle, himage, hprobing⟩ := settle_withImage (s.atTime t) (budget s.loader.straps (configOf answer))
    refine ⟨hexec, hsettle, _, hexec, himage, fun hb => ?_⟩
    obtain ⟨hsettled, hphase, hpower, hcontrol⟩ := hprobing hb
    exact ⟨hsettled, hphase, hpower, hcontrol⟩
  case bad => simp [configOf, hg]
  case good =>
    simp only [configOf, hg, if_true]
    rfl

/-- Settles O13. -/
theorem framesAreAdmittedWithinThePlaces : Obligations.FramesAreAdmittedWithinThePlaces := by
  intro s t f h
  have hexec : exec (.frameArrival t f) s = .next ((s.atTime t).takeIn f) := event_plain h (State.takeIn · f)
  rw [hexec, State.takeIn_eq]
  rfl

/-- Settles O14. -/
theorem framesAreDroppedOrAnsweredByArp : Obligations.FramesAreDroppedOrAnsweredByArp := by
  intro s t h
  refine ⟨fun hf => ?_, fun mac ip hf => ?_⟩
  · exact (event_plain h State.dropFrame).trans (congrArg _ (State.dropFrame_of_drop hf))
  · exact (event_plain h State.answerArp).trans (congrArg _ (State.answerArp_of_arp hf))

/-- Settles O15: by what R6 makes of a HELLO in DEEP and outside it. -/
theorem helloIsAnsweredWithAnnounce : Obligations.HelloIsAnsweredWithAnnounce := by
  intro s t m h hf hk hm
  have hmine := isKind_of_kind hk
  refine ⟨fun hd => ?_, fun hd hn => ?_, fun hd hn => ?_⟩
  · exact message_dispatched h ⟨hf, State.gate_hello (s := s.atTime t) hk hm hd⟩ hmine
  · have hpeer : ¬((s.atTime t).peerOf m.src.mac).isSome = true := Option.not_isSome_iff_eq_none.mpr hn
    have hg : (s.atTime t).gate m = .drop := (State.gate_of_deep (s := s.atTime t) m hd).trans (if_neg hpeer)
    exact message_dropped h ⟨hf, hg⟩ hmine
  · have hg : (s.atTime t).gate m = .leaveDeep := (State.gate_of_deep (s := s.atTime t) m hd).trans (if_pos hn)
    have hwake : m.kind ≠ Kind.wake.code := by rw [hk]; decide
    exact (message_leavesDeep h ⟨hf, hg⟩ hmine).trans (by rw [if_neg hwake])

/-- Settles O16: the row of the kind takes the message, and each outcome of R6 is one of the outcomes of a message. -/
theorem refusedMessagesGetTheirStatus : Obligations.RefusedMessagesGetTheirStatus := by
  intro s t m k h hk
  obtain ⟨mine, act, hmine, hrow⟩ := rowOf_takes s t hk
  rw [hrow]
  refine ⟨fun status hb => message_refused h hb hmine, fun hb => message_dropped h hb hmine, fun hb => ?_⟩
  rw [message_leavesDeep h hb hmine]
  simp only [hk, Kind.code_inj]

/-- Settles O17: one clause for each step of R6. -/
theorem checksAreMadeInOrder : Obligations.ChecksAreMadeInOrder := by
  intro s m k hk
  have hask := Msg.asksPresence_iff hk
  refine ⟨State.gate_of_deep m, ?starting, ?presence, ?presenceAbsent, ?open_, ?group, ?form, ?absent, ?tag, ?role⟩
  case starting =>
    intro hs hh hq
    rw [State.gate_of_starting m hs, if_neg (by rw [hask]; exact not_or.mpr ⟨hh, hq⟩), Gate.refusing_kind hk]
  case presence =>
    intro hs hp
    rw [State.gate_of_starting m hs, if_pos (hask.mpr hp)]
  case presenceAbsent =>
    intro hd hs hm ha hp
    rw [State.gate_of_absent hd hs hm ha, if_pos (hask.mpr hp)]
  case open_ =>
    intro hd hs hm ha ho
    rw [State.gate_of_wellFormed hd hs hk hm ha, State.gateKind_of_open s m ho]
  case group =>
    intro hd hs hm ha hg
    rw [State.gate_of_wellFormed hd hs hk hm ha, State.gateKind_of_group s m hg]
  case form =>
    intro hd hs hm
    rw [State.gate_of_malformed hd hs hm, Gate.refusing_kind hk]
  case absent =>
    intro hd hs hm ha hh hq
    rw [State.gate_of_absent hd hs hm ha, if_neg (by rw [hask]; exact not_or.mpr ⟨hh, hq⟩), Gate.refusing_kind hk]
  case tag =>
    intro hd hs hm ha ht hn
    rw [State.gate_of_wellFormed hd hs hk hm ha, State.gateKind_of_tagged s m ht, if_pos hn]
  case role =>
    intro hd hs hm ha ht hy
    rw [State.gate_of_wellFormed hd hs hk hm ha, State.gateKind_of_tagged s m ht, if_neg (by simp [hy])]

/-- Settles O18. -/
theorem pairAskIsJudgedInOrder : Obligations.PairAskIsJudgedInOrder := by
  intro s t m h hb hk u a
  exact (message_dispatched h hb (isKind_of_kind hk)).trans (by rw [pairAsk_eq]; rfl)

/-- Settles O19: by the ask, then by the lowest FREE entry. -/
theorem pairConfirmEnrolsTheLowestFreeEntry : Obligations.PairConfirmEnrolsTheLowestFreeEntry := by
  intro s t m h hb hk u v
  have hexec : exec (.pairConfirm t) s = .next (State.finish (pairConfirm m u)) :=
    message_dispatched h hb (isKind_of_kind hk)
  refine ⟨fun ha => ?_, fun a ha => ⟨fun hn => ?_, fun n hn => ?_⟩⟩
  · rw [hexec, pairConfirm_of_noAsk ha]
    rfl
  · rw [hexec, pairConfirm_of_full ha hn]
    rfl
  · rw [hexec, pairConfirm_of_free ha hn]
    rfl

/-- Settles O20. -/
theorem unpairFreesTheEntry : Obligations.UnpairFreesTheEntry := by
  intro s t m h hb hk u n
  have hexec : exec (.unpair t) s = .next (State.finish (unpair m u)) := message_dispatched h hb (isKind_of_kind hk)
  refine ⟨fun ho => ?_, fun ho => ?_⟩
  · rw [hexec, unpair_of_owner ho]
    rfl
  · rw [hexec, unpair_of_free ho]
    rfl

/-- Settles O21. -/
theorem reportsChangeOnlyTheLinkFront : Obligations.ReportsChangeOnlyTheLinkFront := by
  intro s t m h hb u
  refine ⟨u.reply_sameBut m, fun hk => message_dispatched h hb (isKind_of_kind hk), fun hk => ?_, fun hk => ?_⟩
  · have hexec : exec (.objectInfo t) s = .next (State.finish (objectInfo m u)) :=
      message_dispatched h hb (isKind_of_kind hk)
    refine ⟨fun ho => ?_, fun o ho => ?_⟩
    · rw [hexec, objectInfo_of_none ho]
      rfl
    · rw [hexec, objectInfo_of_some ho, finish_nil]
  · have hexec : exec (.albumList t) s = .next (State.finish (albumList m u)) :=
      message_dispatched h hb (isKind_of_kind hk)
    refine ⟨fun hr => ?_, fun hr ha => ?_, fun al hr ha => ?_⟩
    · rw [hexec, albumList_of_badRange hr]
      rfl
    · rw [hexec, albumList_of_none hr ha]
      rfl
    · rw [hexec, albumList_of_some hr ha, finish_nil]

/-- Settles O23: by the three cases of the arbiter. -/
theorem theArbiterPrefersTheControlQueue : Obligations.TheArbiterPrefersTheControlQueue := by
  intro s t h
  have hexec : exec (.transmitArbiter t) s = .next (s.atTime t).arbitrate := event_plain h State.arbitrate
  refine ⟨fun m rest hc => ?_, fun i m rest hc hi hq => ?_, fun hc hq => ?_⟩
  · rw [hexec, State.arbitrate_of_control (s := s.atTime t) hc]
    exact ⟨_, rfl, rfl, rfl, rfl, rfl⟩
  · rw [hexec, State.arbitrate_of_slot (s := s.atTime t) hc hi hq]
    refine ⟨_, rfl, rfl, rfl, ?_, hc, fun j hj => ?_⟩
    · simp [State.transmit, State.updSlot]
    · exact Vector.getElem_set_ne i.isLt j.isLt fun he => hj (Fin.ext he.symm)
  · rw [hexec, State.arbitrate_of_nothing (s := s.atTime t) hc hq]

/-- Settles O24: each timer at its time and before it. -/
theorem linkTimersActWhenTheyExpire : Obligations.LinkTimersActWhenTheyExpire := by
  intro s t h
  have hann : exec (.announceTimer t) s = .next (s.atTime t).announceExpiry := event_plain h State.announceExpiry
  have hwin : exec (.pairingWindowExpiry t) s = .next (s.atTime t).windowExpiry := event_plain h State.windowExpiry
  refine ⟨fun e he hle => ?_, fun ho => ?_, fun e he hle => ?_, fun ho => ?_, fun mac => ?_⟩
  · rw [hann, State.announceExpiry_of_due (s := s.atTime t) (h.due_of_le he hle), h.atTime_now]
    rfl
  · rw [hann, State.announceExpiry_of_not_due (s := s.atTime t) (h.not_due ho)]
  · rw [hwin, State.windowExpiry_of_due (s := s.atTime t) (h.due_of_le he hle)]
    rfl
  · rw [hwin, State.windowExpiry_of_not_due (s := s.atTime t) (h.not_due ho)]
  · have hask : exec (.pendingAskExpiry t mac) s = .next ((s.atTime t).askExpiry mac) :=
      event_plain h (State.askExpiry · mac)
    rw [hask, State.askExpiry_eq mac h.atTime_now]
    rfl

/-- Settles O25: an unknown kind is malformed, so R6 refuses it at step 3 and R7 does not count it. -/
theorem unknownKindsGetBadForm : Obligations.UnknownKindsGetBadForm := by
  intro s t m h hf hk hd hs
  have hm := Msg.malformed_of_unknown hk
  have hg : (s.atTime t).gate m = .refuse stBadForm := by
    rw [State.gate_of_malformed (s := s.atTime t) hd hs hm, hk]
    rfl
  have hmet : s.met t m = (s.atTime t).popFrame.discardAsk m := if_neg (by simp [State.counts, hm])
  have hmine : isUnknown m = true := by simp [isUnknown, hk]
  rw [← hmet]
  exact message_refused h ⟨hf, hg⟩ hmine

/-- Settles O59: by the debounce of the line, then by the button and the power state. -/
theorem buttonsPressAfterTheirDebounce : Obligations.ButtonsPressAfterTheirDebounce := by
  intro s t b h l
  have hchange : ∀ pressed, exec (.buttonLineChange t b pressed) s = .next ((s.atTime t).lineChange b pressed) :=
    fun pressed => event_plain h (State.lineChange · b pressed)
  have hexec : exec (.buttonDebounceExpiry t b) s = .next (State.finish (debounceExpiry b (s.atTime t))) :=
    event_of_settled h _
  refine ⟨fun pressed hl => ?_, fun pressed hl => ?_, fun ho => ?_, fun e he hle => ?_⟩
  · rw [hchange, State.lineChange_of_new (s := s.atTime t) hl, h.atTime_now]
    rfl
  · rw [hchange, State.lineChange_of_same (s := s.atTime t) hl]
  · rw [hexec, debounceExpiry_of_not_due (s := s.atTime t) (h.not_due ho)]
    rfl
  · intro v
    have hstate : v.power.state = s.power.state := State.setLine_power_state ..
    have hdue : (s.atTime t).due ((s.atTime t).power.line b).due = true := h.due_of_le he hle
    refine ⟨fun hno => ?released, fun hlevel hreading => ⟨?pairing, ?power⟩⟩
    case released =>
      have hpress : ¬(l.level = true ∧ l.reading = false) := by
        rintro ⟨hlevel, hreading⟩
        simp [hlevel, hreading] at hno
      rw [hexec, debounceExpiry_of_no_press (s := s.atTime t) hdue hpress]
      rfl
    case pairing =>
      rintro rfl
      have hnow : v.now = t := (State.setLine_now ..).trans h.atTime_now
      rw [hexec, debounceExpiry_pairing (s := s.atTime t) hdue hlevel hreading]
      exact congrArg Host.Outcome.next (State.pressPairing_eq hstate hnow)
    case power =>
      rintro rfl
      rw [hexec, debounceExpiry_power (s := s.atTime t) hdue hlevel hreading]
      obtain ⟨hstarting, hawake, hwaking, hquiet, hdeep⟩ := hstate ▸ finish_pressPower v
      exact ⟨fun hp => congrArg _ (hstarting hp), fun hp => congrArg _ (hawake hp), fun hp => congrArg _ (hwaking hp),
        fun hp => congrArg _ (hquiet hp), fun hp => congrArg _ (hdeep hp)⟩

end Sys2Proof.Machine
end

section
/-! SUPPORT and PROOFS. Content that comes in: a CHUNK's segment stored in its arrival's pages, and what a disk's success report
and start-up's reads bring; each operation said once, by its cases, and the two statements about them. -/

namespace Sys2Proof.Machine

/-! ## Arrivals and the check queue -/

@[simp] theorem State.arrival?_setArrival_same (s : State) (k : Fin 32) (r : ArrivalRec) :
    (s.setArrival k r).arrival? k = r.use := by
  simp [State.arrival?, State.setArrival]

theorem State.arrival?_setArrival_other (s : State) (r : ArrivalRec) {j k : Fin 32} (hj : j ≠ k) :
    (s.setArrival k r).arrival? j = s.arrival? j :=
  congrArg ArrivalRec.use (Vector.getElem_set_ne k.isLt j.isLt fun he => hj (Fin.ext he.symm))

/-- A record's arrival number is its generation's (R70). -/
theorem State.arrivalNumber_setArrival (s : State) (k : Fin 32) (use : Option Arrival) :
    (s.setArrival k { gen := s.ingest.arrivals[k].gen, use := use }).arrivalNumber k = s.arrivalNumber k := by
  simp [State.arrivalNumber, State.setArrival]

/-- R72 with a place on the check queue. -/
theorem State.queueIngestCheck_of_place {s : State} (c : CheckItem) (hq : s.ingest.queue.length < Config.checkPlaces) :
    s.queueIngestCheck c = { s with ingest.queue := s.ingest.queue ++ [c] } := if_pos hq

/-- R72 with the check queue full. -/
theorem State.queueIngestCheck_of_full {s : State} (c : CheckItem) (hq : Config.checkPlaces ≤ s.ingest.queue.length) :
    s.queueIngestCheck c = { s with ingest.checkWait := s.ingest.checkWait ++ [c] } := if_neg (Nat.not_lt.mpr hq)

/-- A check item changes the check queue and its wait list, and nothing else. -/
theorem State.queueIngestCheck_lists (s : State) (c : CheckItem) :
    ∃ q w, s.queueIngestCheck c = { s with ingest.queue := q, ingest.checkWait := w } := by
  rcases Nat.lt_or_ge s.ingest.queue.length Config.checkPlaces with hq | hq
  · exact ⟨_, _, State.queueIngestCheck_of_place c hq⟩
  · exact ⟨_, _, State.queueIngestCheck_of_full c hq⟩

/-! ## A CHUNK -/

/-- The pages an arrival's bytes go to: its entry's (R71). -/
def State.arrivalPages (s : State) (a : Arrival) : List Nat := ((s.entry? a.name).map (·.pages)).getD []

/-- A segment's bytes go into their place of the arrival's pages (R71). -/
def State.putSegment (s : State) (a : Arrival) (i : Nat) (payload : List Byte) : State :=
  ({ s with
      buf.stagingMem := s.buf.stagingMem.putChunk (s.arrivalPages a) (i * Config.segmentBytes) payload } : State).issue
    .linkFront payload.length

/-- A segment joins its arrival's received set; the last one missing makes the arrival CHECKING (R71, R72). -/
def State.joinReceived (s : State) (k : Fin 32) (a : Arrival) (i : Nat) : State :=
  s.setArrival k
    { gen := s.ingest.arrivals[k].gen
      use := some { a with got := a.got ++ [i], last := s.now, checking := decide (a.got.length + 1 = a.segments) } }

/-- What every accepted segment does. -/
def State.storeSegment (s : State) (k : Fin 32) (a : Arrival) (i : Nat) (payload : List Byte) : State :=
  (s.putSegment a i payload).joinReceived k a i

/-- An arrival is complete: its entry becomes CHECKING and its pages are queued for their check (R23, R72). -/
def State.completeArrival (s : State) (k : Fin 32) (a : Arrival) (pages : List Nat) : State :=
  (s.updEntry a.name fun e => { e with state := .checking }).queueIngestCheck
    (.ingest (s.arrivalNumber k) a.name a.length pages a.check)

/-- The end of an arrival changes its entry, the check queue and its wait list, and nothing else. -/
theorem State.completeArrival_lists (s : State) (k : Fin 32) (a : Arrival) (pages : List Nat) :
    ∃ q w, s.completeArrival k a pages =
      { s.updEntry a.name fun e => { e with state := .checking } with ingest.queue := q, ingest.checkWait := w } :=
  State.queueIngestCheck_lists ..

/-- R71 for a number that no arrival carries. -/
theorem chunk_of_noArrival {m : Msg} {s : State} (hk : s.arrivalOf (field m.body 0 2) = none) : chunk m s = s.idle := by
  unfold chunk
  simp only [hk]

section
variable {m : Msg} {s : State} {k : Fin 32} {a : Arrival} (hk : s.arrivalOf (field m.body 0 2) = some k)
  (ha : s.arrival? k = some a)
include hk ha

/-- R71 for a segment that its arrival does not accept. -/
theorem chunk_of_ignored (hacc : a.accepts (s.sender m) (field m.body 2 2) (m.body.drop 4).length = false) :
    chunk m s = s.idle := by
  unfold chunk
  simp only [hk, ha, hacc, Bool.false_eq_true, if_false]

/-- R71 and R72 for a segment that leaves one missing. -/
theorem chunk_of_accepted (hacc : a.accepts (s.sender m) (field m.body 2 2) (m.body.drop 4).length = true)
    (hn : a.got.length + 1 ≠ a.segments) :
    chunk m s = (s.storeSegment k a (field m.body 2 2) (m.body.drop 4)).idle := by
  unfold chunk
  simp only [hk, ha, hacc, if_true, List.length_append, List.length_singleton]
  exact if_neg hn

/-- R71 and R72 for the segment that completes its arrival. -/
theorem chunk_of_last (hacc : a.accepts (s.sender m) (field m.body 2 2) (m.body.drop 4).length = true)
    (hn : a.got.length + 1 = a.segments) :
    chunk m s =
      ((s.storeSegment k a (field m.body 2 2) (m.body.drop 4)).completeArrival k a (s.arrivalPages a)).idle := by
  unfold chunk
  simp only [hk, ha, hacc, if_true, List.length_append, List.length_singleton]
  exact if_pos hn

end

/-- What an accepted segment does, whether or not it completes its arrival: its bytes are in the staging pages, it has joined its
arrival's received set, and no other arrival, DRAM content or unit changes (R71, R72). -/
structure State.SegmentStored (s : State) (k : Fin 32) (a : Arrival) (i : Nat) (payload : List Byte) (v : State) : Prop where
  staging : v.buf.stagingMem = s.buf.stagingMem.putChunk (s.arrivalPages a) (i * Config.segmentBytes) payload
  cache : v.buf.cacheMem = s.buf.cacheMem
  places : v.buf.placeMem = s.buf.placeMem
  arrival : v.arrival? k =
    some { a with got := a.got ++ [i], last := s.now, checking := decide (a.got.length + 1 = a.segments) }
  others : ∀ j, j ≠ k → v.arrival? j = s.arrival? j
  runs : v.ingest.runs = s.ingest.runs
  tables : v.tables = s.tables
  store : v.store = s.store
  slots : v.slots = s.slots
  journal : v.journal = s.journal
  link : v.link = s.link

theorem State.storeSegment_stored (s : State) (k : Fin 32) (a : Arrival) (i : Nat) (payload : List Byte) :
    s.SegmentStored k a i payload (s.storeSegment k a i payload) := by
  unfold State.storeSegment State.joinReceived State.putSegment
  constructor
  case others =>
    intro j hj
    rw [State.arrival?_setArrival_other _ _ hj]
    simp [State.arrival?]
  all_goals simp

/-- The end of an arrival touches nothing of what its last segment did. -/
theorem State.SegmentStored.completeArrival {s v : State} {k : Fin 32} {a : Arrival} {i : Nat} {payload : List Byte}
    (h : s.SegmentStored k a i payload v) (pages : List Nat) :
    s.SegmentStored k a i payload (v.completeArrival k a pages) := by
  obtain ⟨staging, cache, places, arrival, others, runs, tables, store, slots, journal, link⟩ := h
  obtain ⟨q, w, hq⟩ := v.completeArrival_lists k a pages
  rw [hq]
  exact ⟨staging, cache, places, arrival, others, runs, tables, store, slots, journal, link⟩

/-- A byte outside the segment's place reads as before. -/
theorem State.SegmentStored.read_other {s v : State} {k : Fin 32} {a : Arrival} {i : Nat} {payload : List Byte}
    (h : s.SegmentStored k a i payload v) (hs : s.Inv) {c : Nat}
    (hc : ∀ j < payload.length, c ≠ pageAddr (s.arrivalPages a) (i * Config.segmentBytes + j)) :
    v.buf.stagingMem.read c = s.buf.stagingMem.read c := by
  rw [h.staging]
  exact Memory.read_putChunk_other _ _ hs.staging hc

section
variable (s : State) (k : Fin 32) (a : Arrival) (i : Nat) (payload : List Byte)

@[simp] theorem State.storeSegment_index : (s.storeSegment k a i payload).index = s.index := by
  simp [State.storeSegment, State.joinReceived, State.putSegment]

@[simp] theorem State.storeSegment_queue : (s.storeSegment k a i payload).ingest.queue = s.ingest.queue := by
  simp [State.storeSegment, State.joinReceived, State.putSegment]

@[simp] theorem State.storeSegment_checkWait : (s.storeSegment k a i payload).ingest.checkWait = s.ingest.checkWait := by
  simp [State.storeSegment, State.joinReceived, State.putSegment]

@[simp] theorem State.storeSegment_arrivalNumber : (s.storeSegment k a i payload).arrivalNumber k = s.arrivalNumber k := by
  have hput : (s.putSegment a i payload).arrivalNumber k = s.arrivalNumber k := by
    simp [State.arrivalNumber, State.putSegment]
  exact (State.arrivalNumber_setArrival ..).trans hput

end

section
variable (s : State) (k : Fin 32) (a : Arrival) (pages : List Nat)

theorem State.completeArrival_index :
    (s.completeArrival k a pages).index = (s.updEntry a.name fun e => { e with state := .checking }).index := by
  obtain ⟨q, w, hq⟩ := s.completeArrival_lists k a pages
  rw [hq]

variable {s}

/-- The check item takes a place of the check queue while there is one (R72). -/
theorem State.completeArrival_of_place (hq : s.ingest.queue.length < Config.checkPlaces) :
    (s.completeArrival k a pages).ingest.queue =
        s.ingest.queue ++ [.ingest (s.arrivalNumber k) a.name a.length pages a.check] ∧
      (s.completeArrival k a pages).ingest.checkWait = s.ingest.checkWait := by
  unfold State.completeArrival
  rw [State.queueIngestCheck_of_place (s := s.updEntry a.name _) _ hq]
  exact ⟨rfl, rfl⟩

/-- The check item waits while the check queue is full (R72). -/
theorem State.completeArrival_of_full (hq : Config.checkPlaces ≤ s.ingest.queue.length) :
    (s.completeArrival k a pages).ingest.queue = s.ingest.queue ∧
      (s.completeArrival k a pages).ingest.checkWait =
        s.ingest.checkWait ++ [.ingest (s.arrivalNumber k) a.name a.length pages a.check] := by
  unfold State.completeArrival
  rw [State.queueIngestCheck_of_full (s := s.updEntry a.name _) _ hq]
  exact ⟨rfl, rfl⟩

end

/-- The state a message's block finds has the invariant. -/
theorem State.met_inv {s : State} (t : Nat) (m : Msg) (hs : s.Inv) : (s.met t m).Inv := by
  have hnow : (s.atTime t).Inv := hs.of_same rfl rfl rfl
  have hask : Keeps (s.atTime t) ((s.atTime t).popFrame.discardAsk m) :=
    State_discardAsk_after m (State_popFrame_after (Keeps.refl _))
  unfold State.met
  split
  · exact (State_heard_after m hask).inv hnow
  · exact hask.inv hnow

/-! ## Reports of the command in flight -/

/-- A report for the attempt that runs concerns the command in flight. -/
theorem State.reported?_of_flight {s : State} {b : BayNo} {f : InFlight} (hf : s.bays[b].flight = some f) :
    s.reported? b f.attempt = some f.cmd := by
  unfold State.reported?
  rw [hf]
  simp

/-- A report with no command in flight, or for another attempt than the one that runs, concerns no command (R120). -/
theorem State.reported?_of_late {s : State} {b : BayNo} {attempt : Nat}
    (h : ∀ f, s.bays[b].flight = some f → attempt ≠ f.attempt) : s.reported? b attempt = none := by
  unfold State.reported?
  cases hf : s.bays[b].flight with
  | none => rfl
  | some f => simp [(h f hf).symm]

section
variable {s : State} {b : BayNo} {attempt : Nat}

section
variable (hr : s.reported? b attempt = none)
include hr

theorem readSlotDone_of_late (data : List Byte) : readSlotDone b attempt data s = s.idle := by
  unfold readSlotDone
  rw [hr]

theorem writeSlotDone_of_late : writeSlotDone b attempt s = s.idle := by
  unfold writeSlotDone
  rw [hr]

theorem writeJournalDone_of_late : writeJournalDone b attempt s = s.idle := by
  unfold writeJournalDone
  rw [hr]

theorem readJournalDone_of_late (data : List Byte) : readJournalDone b attempt data s = s.idle := by
  unfold readJournalDone
  rw [hr]

theorem spinDownDone_of_late : spinDownDone b attempt s = s.idle := by
  unfold spinDownDone
  rw [hr]
  rfl

theorem labelDone_of_late (data : List Byte) : labelDone b attempt data s = s.idle := by
  unfold labelDone
  rw [hr]

end

/-- R107: a copy's bytes are in its pages. -/
theorem readSlotDone_copy {n length id : Nat} (data : List Byte)
    (hr : s.reported? b attempt = some (.readSlot n length (.copy id))) :
    readSlotDone b attempt data s =
      ((s.landFlight b).fillCopy id (padTo length data), [.busyDown n, .landed id] ++ doneTasks b) := by
  unfold readSlotDone
  rw [hr]

/-- R108: a source read's bytes are in their space of the job's reconstruction place. -/
theorem readSlotDone_source {n length j m p : Nat} {job : Job} (data : List Byte)
    (hr : s.reported? b attempt = some (.readSlot n length (.source j m))) (hj : s.job? j = some job)
    (hp : job.place = some p) :
    readSlotDone b attempt data s =
      ({ s.landFlight b with buf.placeMem := s.buf.placeMem.writeBytes (spaceBase p m) (padTo length data) },
        [.sourceEnded j m n true] ++ doneTasks b) := by
  have hplace : ((s.landFlight b).job? j).bind (·.place) = some p := by
    rw [show (s.landFlight b).job? j = some job from hj, Option.bind_some, hp]
  unfold readSlotDone
  simp only [hr, hplace]
  rfl

/-- The task that tells a write's giver of its end (R102, R110, R112). -/
def WriteUse.landedTask (n : Nat) : WriteUse → Task
  | .writeOut m _ _ => .writeEnded n m true
  | .rewrite j => .repairEnded j
  | .rebuild j => .rebuildWritten j

/-- R102, R110, R112: the giver is told that its write has landed. -/
theorem writeSlotDone_of_write {n : Nat} {u : WriteUse} (hr : s.reported? b attempt = some (.writeSlot n u)) :
    writeSlotDone b attempt s = (s.landFlight b, [u.landedTask n] ++ doneTasks b) := by
  unfold writeSlotDone
  rw [hr]
  cases u <;> rfl

theorem writeJournalDone_of_write {start length : Nat} {u : JournalUse}
    (hr : s.reported? b attempt = some (.writeJournal start length u)) :
    writeJournalDone b attempt s = (s.landFlight b, [.journalEnded u true] ++ doneTasks b ++ [.judgeFormation]) := by
  unfold writeJournalDone
  rw [hr]

theorem readJournalDone_of_read {start length : Nat} {u : LoadUse} (data : List Byte)
    (hr : s.reported? b attempt = some (.readJournal start length u)) :
    readJournalDone b attempt data s =
      (s.landFlight b, [.loadEnded u (some (padTo length data))] ++ doneTasks b) := by
  unfold readJournalDone
  rw [hr]

theorem labelDone_of_write {label : Label} (data : List Byte) (hr : s.reported? b attempt = some (.labelWrite label)) :
    labelDone b attempt data s = (s.landFlight b, doneTasks b ++ [.judgeFormation]) := by
  unfold labelDone
  rw [hr]

/-- R123: the member is in STANDBY, and a spin-up ordered meanwhile begins. -/
theorem spinDownDone_of_spinDown (hr : s.reported? b attempt = some .spinDown) :
    spinDownDone b attempt s =
      let standby := (s.landFlight b).updBay b fun x => { x with substate := x.substate.map fun _ => .standby }
      (if s.bays[b].spinAgain then standby.beginSpin b else standby, [.commandEnded true, .substateReport, .pump b]) := by
  unfold spinDownDone
  rw [if_pos hr]
  simp [State.landFlight, State.updBay]

end

/-! ## Checkpoint load and replay -/

/-- The end of a read of start-up that failed moves no byte. -/
theorem loadEnded_of_failed (use : LoadUse) (s : State) : loadEnded use none s = loadFailed s := by
  cases use <;> rfl

/-- R189: a read of the load failed. -/
theorem loadFailed_of_loading {s : State} {m : Nat} {hs : List (Nat × Header)} (hp : s.loader.phase = .loading m hs) :
    loadFailed s = (s, [.loadMember (m + 1)]) := by
  unfold loadFailed
  rw [hp]

/-- R190: a read of replay failed. -/
theorem loadFailed_of_replay {s : State} {m e : Nat} (hp : s.loader.phase = .replay m e) :
    loadFailed s = ({ s with journal := { Journal.reset with storeId := s.journal.storeId } }, [.loadMember 0]) := by
  unfold loadFailed
  rw [hp]

section
variable {s : State} {m : Nat} {h : Nat × Header} {hs : List (Nat × Header)} {d : List Byte}
  (hp : s.loader.phase = .loading m (h :: hs))
include hp

/-- R189: an image whose check is right. -/
theorem loadEnded_image_of_good (hc : bodyCheck (d.take h.2.length) = h.2.check) :
    loadEnded .image (some d) s = ((s.issue .journal d.length).takeImage m h.2 d, [.readBlock]) := by
  unfold loadEnded
  simp [hp, hc]

/-- R189: an image whose check is wrong. -/
theorem loadEnded_image_of_bad (hc : bodyCheck (d.take h.2.length) ≠ h.2.check) :
    loadEnded .image (some d) s = ({ s.issue .journal d.length with loader.phase := .loading m hs }, [.tryImage]) := by
  unfold loadEnded
  simp [hp, hc]

end

/-- R190: a block read in replay is judged. -/
theorem loadEnded_block {s : State} {m e : Nat} {d : List Byte} (hp : s.loader.phase = .replay m e) :
    loadEnded .block (some d) s = (s.issue .journal d.length).takeBlock m e d := by
  unfold loadEnded
  simp [hp]

/-- R190: a block taken. -/
theorem State.takeBlock_of_taken {s : State} {m e : Nat} {d : List Byte} {rs : List Record}
    (hb : readBlock s.journal.storeId e d = .taken rs) :
    s.takeBlock m e d =
      ({ s with journal.tables := s.journal.tables.replay rs, loader.phase := .replay m (e + 1) }, [.readBlock]) := by
  unfold State.takeBlock
  rw [hb]

/-- R190: a block not taken. -/
theorem State.takeBlock_of_stop {s : State} {m e : Nat} {d : List Byte} {torn : Bool}
    (hb : readBlock s.journal.storeId e d = .stop torn) :
    s.takeBlock m e d = (s.stopReplay e torn, [.endReplay]) := by
  unfold State.takeBlock
  rw [hb]

/-! ## The end of replay, and reconciliation -/

/-- The loaded tables hold more chunks or more whole objects than their capacities (R37, R55). -/
def State.overloaded (s : State) : Prop :=
  s.loader.image.indexCapacity < s.journal.tables.whole.chunks.length ∨
    s.loader.image.objectCapacity < s.journal.tables.whole.objs.length

/-- R190: the counts pass a capacity. -/
theorem endReplay_of_overloaded {s : State} (h : s.overloaded) :
    endReplay s = ({ s with journal.tables := s.journal.tables.whole }, [.storeAbsent]) := by
  unfold endReplay
  exact if_pos (by simpa [State.overloaded] using h)

/-- R190: the counts are within their capacities. -/
theorem endReplay_of_fits {s : State} (h : ¬s.overloaded) :
    endReplay s =
      ({ s with journal.tables := s.journal.tables.whole, loader.phase := .reconciling }, [.reconcileObjects]) := by
  unfold endReplay
  exact if_neg (by simpa [State.overloaded] using h)

theorem Obj.spent_iff (o : Obj) : o.spent = true ↔ o.state = .retired ∧ o.albumCount = 0 := by
  simp [Obj.spent]

/-- R191 step 1 leaves no object that is spent. -/
theorem not_spent_of_mem_reconcileObjects {s : State} {o : Obj} (ho : o ∈ (reconcileObjects s).1.tables.objs) :
    ¬(o.state = .retired ∧ o.albumCount = 0) := by
  have hkept : (!o.spent) = true := (List.mem_filter.mp ho).2
  rw [← o.spent_iff]
  simpa using hkept

theorem LoadedChunk.entry_stored_or_lost (c : LoadedChunk) (n : Nat) :
    (c.entry n).state = .stored ∨ (c.entry n).state = .lost := by
  cases hl : c.lost <;> simp [LoadedChunk.entry, hl]

/-- R191 step 2 loads the entries that some list names, each with its refcount, STORED or LOST. -/
theorem of_mem_reconcileChunks {s : State} {e : Entry} (he : e ∈ (reconcileChunks s).1.index) :
    e.refcount = s.occurrences e.name ∧ e.refcount ≠ 0 ∧ (e.state = .stored ∨ e.state = .lost) := by
  obtain ⟨hmem, hne⟩ := List.mem_filter.mp he
  obtain ⟨c, _, rfl⟩ := List.mem_map.mp hmem
  exact ⟨rfl, of_decide_eq_true hne, c.entry_stored_or_lost _⟩

/-! ## The statements -/

/-- Settles O31: by the arrival, by what it accepts, and by whether the segment is its last. -/
theorem chunksAreStoredInTheirPages : Obligations.ChunksAreStoredInTheirPages := by
  intro s t m h hs hb hkind u i payload
  have hinv : u.Inv := State.met_inv t m hs
  have hexec : exec (.chunk t) s = .next (State.finish (chunk m u)) := message_dispatched h hb (isKind_of_kind hkind)
  refine ⟨fun hk => ?noArrival, fun k a hk ha => ⟨fun hacc => ?ignored, fun hacc => ?accepted⟩⟩
  case noArrival => rw [hexec, chunk_of_noArrival hk, State.idle, finish_nil]
  case ignored => rw [hexec, chunk_of_ignored hk ha hacc, State.idle, finish_nil]
  case accepted =>
    intro pages
    have hstored := u.storeSegment_stored k a i payload
    by_cases hn : a.got.length + 1 = a.segments
    case pos =>
      rw [chunk_of_last hk ha hacc hn, State.idle, finish_nil] at hexec
      have hdone := hstored.completeArrival pages
      have hplace := State.completeArrival_of_place (s := u.storeSegment k a i payload) k a pages
      have hfull := State.completeArrival_of_full (s := u.storeSegment k a i payload) k a pages
      have hindex := State.completeArrival_index (u.storeSegment k a i payload) k a pages
      rw [State.storeSegment_queue, State.storeSegment_checkWait, State.storeSegment_arrivalNumber] at hplace hfull
      exact ⟨_, hexec, hdone.staging, fun c hc => hdone.read_other hinv hc, hdone.cache, hdone.places, hdone.arrival,
        fun hne => absurd hn hne, fun _ => ⟨hindex.trans (by simp [State.updEntry]), hplace, hfull⟩, hdone.others,
        hdone.runs, hdone.tables, hdone.store, hdone.slots, hdone.journal, hdone.link⟩
    case neg =>
      rw [chunk_of_accepted hk ha hacc hn, State.idle, finish_nil] at hexec
      exact ⟨_, hexec, hstored.staging, fun c hc => hstored.read_other hinv hc, hstored.cache, hstored.places,
        hstored.arrival, fun _ => ⟨by simp, by simp, by simp⟩, fun he => absurd he hn, hstored.others, hstored.runs,
        hstored.tables, hstored.store, hstored.slots, hstored.journal, hstored.link⟩

/-- The reports of a late attempt do nothing (R120). -/
theorem late_reports_do_nothing {s : State} {t : Nat} {b : BayNo} {attempt : Nat} (data : List Byte) (h : s.Settled t)
    (hlate : ∀ f, s.bays[b].flight = some f → attempt ≠ f.attempt) :
    ∀ c ∈ [Instr.readSlotDone t ⟨b, attempt⟩ data, .writeSlotDone t ⟨b, attempt⟩, .writeJournalDone t ⟨b, attempt⟩,
      .readJournalDone t ⟨b, attempt⟩ data, .spinDownDone t ⟨b, attempt⟩, .labelDone t ⟨b, attempt⟩ data],
      exec c s = .next (s.atTime t) := by
  have hr : (s.atTime t).reported? b attempt = none := State.reported?_of_late hlate
  have hidle : ∀ {f : State → Work}, f (s.atTime t) = (s.atTime t).idle → s.event t f = .next (s.atTime t) :=
    fun hf => (event_of_settled h _).trans (by rw [hf, State.idle, finish_nil])
  simp only [List.forall_mem_cons, List.not_mem_nil, false_implies, implies_true, and_true]
  exact ⟨hidle (readSlotDone_of_late hr data), hidle (writeSlotDone_of_late hr), hidle (writeJournalDone_of_late hr),
    hidle (readJournalDone_of_late hr data), hidle (spinDownDone_of_late hr), hidle (labelDone_of_late hr data)⟩

/-- Settles O55: by the report, by the phase of start-up, and by the steps of reconciliation. -/
theorem diskCommandsEndDone : Obligations.DiskCommandsEndDone := by
  refine ⟨fun s t b attempt data h hlate => late_reports_do_nothing data h hlate, ?done, ?failed, ?image, ?block, ?ended⟩
  case done =>
    intro s t b f h hf u after standby
    have hr : ∀ {cmd}, f.cmd = cmd → (s.atTime t).reported? b f.attempt = some cmd :=
      fun hcmd => hcmd ▸ State.reported?_of_flight hf
    have hends : ∀ {g : State → Work} {w : Work}, g (s.atTime t) = w → s.event t g = .next (State.finish w) :=
      fun hg => hg ▸ event_of_settled h _
    exact ⟨fun n length id data hc => hends (readSlotDone_copy data (hr hc)),
      fun n length j m data job p hc hj hp => hends (readSlotDone_source data (hr hc) hj hp),
      fun n m pages length hc => hends (writeSlotDone_of_write (hr hc)),
      fun n j hc => hends (writeSlotDone_of_write (hr hc)),
      fun n j hc => hends (writeSlotDone_of_write (hr hc)),
      fun start length use hc => hends (writeJournalDone_of_write (hr hc)),
      fun start length use data hc => hends (readJournalDone_of_read data (hr hc)),
      fun label data hc => hends (labelDone_of_write data (hr hc)),
      fun hc => hends (spinDownDone_of_spinDown (hr hc))⟩
  case failed =>
    intro s use
    refine ⟨fun m hs hp => ?_, fun m e hp => ?_⟩
    · exact (loadEnded_of_failed use s).trans (loadFailed_of_loading hp)
    · exact (loadEnded_of_failed use s).trans (loadFailed_of_replay hp)
  case image =>
    intro s m base h hs d hp w
    refine ⟨fun hc => ?_, fun hc => ?_⟩
    · have hw : w = _ := loadEnded_image_of_good hp hc
      rw [hw]
      exact ⟨rfl, rfl, rfl, rfl, rfl, rfl, rfl⟩
    · have hw : w = _ := loadEnded_image_of_bad hp hc
      rw [hw]
      exact ⟨rfl, rfl, State.issue_journal ..⟩
  case block =>
    intro s m e d hp w
    have hw : w = (s.issue .journal d.length).takeBlock m e d := loadEnded_block hp
    have hjournal : (s.issue .journal d.length).journal = s.journal := State.issue_journal ..
    refine ⟨fun rs hb => ?_, fun torn hb => ?_⟩
    · rw [hw, State.takeBlock_of_taken (hjournal ▸ hb)]
      exact ⟨rfl, rfl, by rw [hjournal]⟩
    · rw [hw, State.takeBlock_of_stop (hjournal ▸ hb)]
      exact ⟨rfl, rfl, rfl, rfl, (congrArg Journal.tables hjournal :)⟩
  case ended =>
    intro s whole
    refine ⟨fun hover => ?_, fun hchunks hobjs => ?_, fun o ho => not_spent_of_mem_reconcileObjects ho,
      fun e he => of_mem_reconcileChunks he⟩
    · exact congrArg Prod.snd (endReplay_of_overloaded hover)
    · have hw : carryOut .endReplay s = _ :=
        endReplay_of_fits (not_or.mpr ⟨Nat.not_lt.mpr hchunks, Nat.not_lt.mpr hobjs⟩)
      rw [hw]
      exact ⟨rfl, rfl⟩

end Sys2Proof.Machine
end

section
/-! SUPPORT and PROOFS. Objects and albums (Chapter 3): the object id counter, what each request makes of each case it can meet,
said once, and the statements about them. -/

namespace Sys2Proof.Machine

/-! ## Work that leaves no task -/

/-- Work with no task left answers its state; a refusal is such work. -/
theorem next_of_noTasks {c : Host.Outcome State Fault Refusal} {w : Work} {v : State} (hc : c = .next (State.finish w))
    (hw : w = (v, [])) : c = .next v := by
  rw [hc, hw, finish_nil]

/-! ## The object id counter -/

/-- The value after an object id, in use or not: from 4,294,967,295 to 1 (R40). -/
def idAfter (c : Nat) : Nat := if c = 4294967295 then 1 else c + 1

/-- The ids an object can have (R40). -/
def IsObjectId (c : Nat) : Prop := 1 ≤ c ∧ c ≤ 4294967295

theorem nextObjectId_of_used {used : List Nat} {c : Nat} (n : Nat) (h : idAfter c ∈ used) :
    nextObjectId used (n + 1) c = nextObjectId used n (idAfter c) := if_pos (List.contains_iff_mem.mpr h)

theorem nextObjectId_of_unused {used : List Nat} {c : Nat} (n : Nat) (h : idAfter c ∉ used) :
    nextObjectId used (n + 1) c = idAfter c := if_neg fun hc => h (List.contains_iff_mem.mp hc)

theorem IsObjectId.after {c : Nat} (h : IsObjectId c) : IsObjectId (idAfter c) := by
  unfold IsObjectId idAfter at *
  split <;> omega

theorem IsObjectId.next {used : List Nat} (n : Nat) {c : Nat} (h : IsObjectId c) :
    IsObjectId (nextObjectId used n c) := by
  induction n generalizing c with
  | zero => exact h
  | succ n ih =>
    by_cases hu : idAfter c ∈ used
    · rw [nextObjectId_of_used n hu]
      exact ih h.after
    · rw [nextObjectId_of_unused n hu]
      exact h.after

/-- The ids form one circle: `k` places after an id, counted round it. -/
theorem IsObjectId.iterate_idAfter {c : Nat} (h : IsObjectId c) (k : Nat) :
    idAfter^[k] c = (c - 1 + k) % 4294967295 + 1 := by
  obtain ⟨hlo, hhi⟩ := h
  induction k with
  | zero => simp only [Function.iterate_zero, id]; omega
  | succ k ih =>
    rw [Function.iterate_succ_apply', ih]
    unfold idAfter
    split <;> omega

/-- Fewer places than the circle has lead to different ids. -/
theorem IsObjectId.iterate_idAfter_inj {c n j k : Nat} (h : IsObjectId c) (hn : n ≤ 4294967295) (hj : j < n) (hk : k < n)
    (he : idAfter^[j + 1] c = idAfter^[k + 1] c) : j = k := by
  rw [h.iterate_idAfter, h.iterate_idAfter] at he
  omega

/-- Where the search ends at an id in use, it has met only ids in use. -/
theorem iterate_idAfter_mem {used : List Nat} {n : Nat} :
    ∀ {c : Nat}, nextObjectId used n c ∈ used → ∀ j < n, idAfter^[j + 1] c ∈ used := by
  induction n with
  | zero => exact fun _ j hj => absurd hj (Nat.not_lt_zero j)
  | succ n ih =>
    intro c h j hj
    by_cases hu : idAfter c ∈ used
    · rw [nextObjectId_of_used n hu] at h
      cases j with
      | zero => exact hu
      | succ j => exact ih h j (Nat.lt_of_succ_lt_succ hj)
    · rw [nextObjectId_of_unused n hu] at h
      exact absurd h hu

/-- A search longer than the list of ids in use finds one that is not: it meets each id at most once. -/
theorem IsObjectId.nextObjectId_notMem {used : List Nat} {n c : Nat} (h : IsObjectId c) (hu : used.length < n)
    (hn : n ≤ 4294967295) : nextObjectId used n c ∉ used := by
  intro hmem
  have hsub : (List.range n).map (fun j => idAfter^[j + 1] c) ⊆ used := fun d hd => by
    obtain ⟨j, hj, rfl⟩ := List.mem_map.mp hd
    exact iterate_idAfter_mem hmem j (List.mem_range.mp hj)
  have hnodup : ((List.range n).map fun j => idAfter^[j + 1] c).Nodup :=
    List.nodup_range.map_on fun j hj k hk he =>
      h.iterate_idAfter_inj hn (List.mem_range.mp hj) (List.mem_range.mp hk) he
  have hlen := (hnodup.subperm hsub).length_le
  rw [List.length_map, List.length_range] at hlen
  omega

/-! ## Looking up -/

theorem State.obj?_eq_none_iff {s : State} {id : Nat} : s.obj? id = none ↔ id ∉ s.tables.objs.map (·.id) := by
  simp [State.obj?]

theorem State.id_of_obj? {s : State} {id : Nat} {o : Obj} (h : s.obj? id = some o) : o.id = id :=
  of_decide_eq_true (List.find?_some h :)

theorem State.album?_of_lt (s : State) {a : Nat} (h : a < 64) : s.album? a = s.tables.albums[a] := by
  simp [State.album?, h]

/-! ## OBJECT-BEGIN -/

/-- R40: the counter's value is the new object's id, where it is not in use. -/
theorem State.takeObjectId_of_unused {s : State} (h : s.obj? s.tables.counter = none) : s.takeObjectId = s.tables.counter :=
  if_neg fun hc => State.obj?_eq_none_iff.mp h (List.contains_iff_mem.mp hc)

/-- Assumption log 16: where the counter's value is in use, the next one not in use is the new object's id. -/
theorem State.takeObjectId_of_used {s : State} (h : s.obj? s.tables.counter ≠ none) :
    s.takeObjectId = nextObjectId (s.tables.objs.map (·.id)) (s.tables.objs.length + 1) s.tables.counter :=
  if_pos (List.contains_iff_mem.mpr (not_not.mp fun hc => h (State.obj?_eq_none_iff.mpr hc)))

/-- The new object's id is an object id that is not in use. -/
theorem State.takeObjectId_new {s : State} (hc : IsObjectId s.tables.counter) (hn : s.tables.objs.length < 4294967295) :
    s.obj? s.takeObjectId = none ∧ IsObjectId s.takeObjectId := by
  by_cases hu : s.obj? s.tables.counter = none
  · rw [State.takeObjectId_of_unused hu]
    exact ⟨hu, hc⟩
  · rw [State.takeObjectId_of_used hu, State.obj?_eq_none_iff]
    exact ⟨hc.nextObjectId_notMem (by simp) hn, hc.next _⟩

/-- The state in which a new object of a run is listed, and the counter has gone on (R40, R41). -/
def State.beginObject (s : State) (r : Run) (o : Obj) : State :=
  let objs := s.tables.objs ++ [o]
  let counter := nextObjectId (objs.map (·.id)) (objs.length + 1) o.id
  ({ s with tables.objs := objs, tables.counter := counter } : State).updRun r.id fun r =>
    { r with objects := r.objects ++ [o.id] }

/-- The object an OBJECT-BEGIN makes (R41). -/
def State.objectOf (s : State) (m : Msg) (r : Run) : Obj :=
  newObject s.takeObjectId (s.sender m) r.id ((m.body.drop 3).take (byteAt m.body 2))

theorem objectBegin_of_noRun {m : Msg} {s : State} (hr : s.run? (field m.body 0 2) = none) :
    objectBegin m s = s.refuse m stNoSuch := by
  unfold objectBegin
  simp only [hr]

section
variable {m : Msg} {s : State} {r : Run} (hr : s.run? (field m.body 0 2) = some r)
include hr

theorem objectBegin_of_notOwner (ho : r.owner ≠ s.sender m) : objectBegin m s = s.refuse m stNotAllowed := by
  unfold objectBegin
  simp only [hr]
  exact if_pos ho

variable (ho : r.owner = s.sender m)
include ho

theorem objectBegin_of_closing (hc : r.closing = true) : objectBegin m s = s.refuse m stClosing := by
  unfold objectBegin
  simp only [hr, ho, hc, ne_eq, not_true, if_false, if_true]

variable (hc : r.closing = false)
include hc

theorem objectBegin_of_busy (hn : Config.openPerRun ≤ r.objects.length) : objectBegin m s = s.refuse m stBusy := by
  unfold objectBegin
  simp only [hr, ho, hc, hn, ne_eq, not_true, Bool.false_eq_true, if_false, if_true]

variable (hn : r.objects.length < Config.openPerRun)
include hn

theorem objectBegin_of_full (ht : s.loader.image.objectCapacity ≤ s.tables.objs.length) :
    objectBegin m s = s.refuse m stFull := by
  unfold objectBegin
  simp only [hr, ho, hc, hn, ht, ne_eq, not_true, Bool.false_eq_true, Nat.not_le.mpr, if_false, if_true]

theorem objectBegin_of_room (ht : s.tables.objs.length < s.loader.image.objectCapacity) :
    objectBegin m s = ((s.beginObject r (s.objectOf m r)).reply m stOk (be 4 s.takeObjectId), []) := by
  unfold objectBegin
  simp only [hr, ho, hc, hn, ht, ne_eq, not_true, Bool.false_eq_true, Nat.not_le.mpr, if_false]
  rfl

end

/-! ## OBJECT-APPEND -/

/-- R29 for a name with no entry. -/
theorem State.incrementAnswer_of_none {s : State} {n : Name} (he : s.entry? n = none) : s.incrementAnswer n = .missing := by
  unfold State.incrementAnswer
  rw [he]

section
variable {s : State} {n : Name} {e : Entry} (he : s.entry? n = some e)
include he

/-- R29 for an entry whose bytes are not there yet. -/
theorem State.incrementAnswer_of_coming (hs : e.state = .arriving ∨ e.state = .checking) :
    s.incrementAnswer n = .missing := by
  unfold State.incrementAnswer
  simp [he, hs]

variable (ha : e.state ≠ .arriving) (hc : e.state ≠ .checking)
include ha hc

/-- R29 for an entry at its refcount limit. -/
theorem State.incrementAnswer_of_limit (hr : Config.maxRefcount ≤ e.refcount) : s.incrementAnswer n = .refLimit := by
  unfold State.incrementAnswer
  simp [he, ha, hc, hr]

/-- R29 for an entry that can be counted. -/
theorem State.incrementAnswer_of_ok (hr : e.refcount < Config.maxRefcount) : s.incrementAnswer n = .ok := by
  unfold State.incrementAnswer
  simp [he, ha, hc, hr]

end

/-- The status with which an answer of the Content Index stops an OBJECT-APPEND, if any (R42). -/
def Increment.stop : Increment → Option Nat
  | .missing => some stMissing
  | .refLimit => some stRefLimit
  | .ok => none

theorem State.appendStop_of_fullList {s : State} {o : Obj} (n : Name) (hl : Config.listNames ≤ o.names.length) :
    s.appendStop o n = some stBadRange := if_pos hl

section
variable {s : State} {o : Obj} (n : Name) (hl : o.names.length < Config.listNames)
include hl

theorem State.appendStop_of_fullRegion (hr : Config.regionNames ≤ s.regionUsed) : s.appendStop o n = some stFull :=
  (if_neg (Nat.not_le.mpr hl)).trans (if_pos hr)

/-- With room for the name, the Content Index says what stops it. -/
theorem State.appendStop_of_room (hr : s.regionUsed < Config.regionNames) :
    s.appendStop o n = (s.incrementAnswer n).stop := by
  unfold State.appendStop
  rw [if_neg (Nat.not_le.mpr hl), if_neg (Nat.not_le.mpr hr)]
  cases s.incrementAnswer n <;> rfl

end

/-- A name taken raises its entry's refcount and joins the list with its entry's length (R29, R42). -/
theorem State.takeName_eq {s : State} {n : Name} {e : Entry} (id : Nat) (he : s.entry? n = some e) :
    s.takeName id n = (s.updEntry n Entry.counted).updObj id fun o =>
      { o with names := o.names ++ [n], total := o.total + e.length } := by
  simp only [State.takeName, State.chunkLength, he, Option.map_some, Option.getD_some]

section
variable {s : State} {id : Nat} {o : Obj} {n : Name} (k : Nat) (ns : List Name) (ho : s.obj? id = some o)
include ho

theorem State.takeNames_of_stop {status : Nat} (hs : s.appendStop o n = some status) :
    s.takeNames id k (n :: ns) = (s, k, status) := by
  rw [State.takeNames]
  simp only [ho, hs]

theorem State.takeNames_of_taken (hs : s.appendStop o n = none) :
    s.takeNames id k (n :: ns) = (s.takeName id n).takeNames id (k + 1) ns := by
  rw [State.takeNames]
  simp only [ho, hs]

end

theorem objectAppend_of_none {m : Msg} {s : State} (ho : s.obj? (field m.body 0 4) = none) :
    objectAppend m s = s.refuse m stNoSuch := by
  unfold objectAppend
  simp only [ho]

section
variable {m : Msg} {s : State} {o : Obj} (ho : s.obj? (field m.body 0 4) = some o)
include ho

theorem objectAppend_of_notOwner (hw : o.owner ≠ s.sender m) : objectAppend m s = s.refuse m stNotAllowed := by
  unfold objectAppend
  simp only [ho]
  exact if_pos hw

variable (hw : o.owner = s.sender m)
include hw

theorem objectAppend_of_complete (hs : o.state = .complete) : objectAppend m s = s.refuse m stNotAllowed := by
  unfold objectAppend
  simp only [ho, hw, hs, ne_eq, not_true, if_false]

theorem objectAppend_of_retired (hs : o.state = .retired) : objectAppend m s = s.refuse m stRetired := by
  unfold objectAppend
  simp only [ho, hw, hs, ne_eq, not_true, if_false]

theorem objectAppend_of_opened (hs : o.state = .opened) :
    let a := s.takeNames (field m.body 0 4) 0 (appendNames m.body)
    objectAppend m s =
      (a.1.reply m a.2.2 (be 1 a.2.1 ++ be 2 (((a.1.obj? (field m.body 0 4)).map fun o => o.names.length).getD 0)),
       if s.risen a.1 then [.walk] else []) := by
  unfold objectAppend
  simp only [ho, hw, hs, ne_eq, not_true, if_false]

end

/-! ## OBJECT-FINISH -/

theorem objectFinish_of_none {m : Msg} {s : State} (ho : s.obj? (field m.body 0 4) = none) :
    objectFinish m s = s.refuse m stNoSuch := by
  unfold objectFinish
  simp only [ho]

section
variable {m : Msg} {s : State} {o : Obj} (ho : s.obj? (field m.body 0 4) = some o)
include ho

theorem objectFinish_of_notOwner (hw : o.owner ≠ s.sender m) : objectFinish m s = s.refuse m stNotAllowed := by
  unfold objectFinish
  simp only [ho]
  exact if_pos hw

variable (hw : o.owner = s.sender m)
include hw

theorem objectFinish_of_retired (hs : o.state = .retired) : objectFinish m s = s.refuse m stRetired := by
  unfold objectFinish
  simp only [ho, hw, hs, ne_eq, not_true, if_false]

theorem objectFinish_of_complete (hs : o.state = .complete) :
    objectFinish m s = (s.reply m stOk (finishData o), []) := by
  unfold objectFinish
  simp only [ho, hw, hs, ne_eq, not_true, if_false]

variable (hs : o.state = .opened)
include hs

theorem objectFinish_of_empty (hn : o.names = []) : objectFinish m s = s.refuse m stBadRange := by
  unfold objectFinish
  simp only [ho, hw, hs, hn, ne_eq, not_true, if_false, List.isEmpty_nil, if_true]

variable (hn : o.names ≠ [])
include hn

/-- R43 with every entry settled. -/
theorem objectFinish_of_settled (he : ∀ n ∈ o.names, s.settled n = true) :
    objectFinish m s = (((s.complete o).leaveRun (field m.body 0 4)).reply m stOk (finishData o),
      [.objectRecords (field m.body 0 4) o.run]) := by
  unfold objectFinish
  simp only [ho, hw, hs, ne_eq, not_true, if_false, List.isEmpty_iff, hn, List.all_eq_true.mpr he, if_true]

/-- R43 with an entry that is not settled. -/
theorem objectFinish_of_unsettled (he : ∃ n ∈ o.names, s.settled n = false) :
    objectFinish m s = (((s.complete o).makePending o).reply m stOk (finishData { o with pending := true }), []) := by
  have hall : o.names.all s.settled = false :=
    List.all_eq_false.mpr (he.imp fun n hsettled => by simpa using hsettled)
  unfold objectFinish
  simp only [ho, hw, hs, ne_eq, not_true, if_false, List.isEmpty_iff, hn, hall, Bool.false_eq_true]

end

/-! ## OBJECT-DELETE -/

/-- The run whose close a deleted object may have been waited for (R44, R64). -/
def Obj.closeTasks (o : Obj) : List Task := if o.pending then o.run.toList.map Task.judgeClose else []

theorem Obj.closeTasks_of_notPending {o : Obj} (hp : o.pending = false) : o.closeTasks = [] := by
  simp [Obj.closeTasks, hp]

theorem Obj.closeTasks_of_pending {o : Obj} {r : Nat} (hp : o.pending = true) (hr : o.run = some r) :
    o.closeTasks = [.judgeClose r] := by
  simp [Obj.closeTasks, hp, hr]

theorem State.unpend_of_notPending {o : Obj} (s : State) (hp : o.pending = false) : s.unpend o = s := by
  simp [State.unpend, hp]

theorem State.unpend_of_pending {o : Obj} {r : Nat} (s : State) (hp : o.pending = true) (hr : o.run = some r) :
    s.unpend o = (s.updObj o.id fun o => { o with pending := false, run := none }).updRun r fun r =>
      { r with pendingObjs := r.pendingObjs - 1 } := by
  simp only [State.unpend, hp, hr, if_true]

/-- An object that something holds is RETIRED (R47). -/
def State.retire (s : State) (id : Nat) : State := s.updObj id fun o => { o with state := .retired }

theorem objectDelete_of_none {m : Msg} {s : State} (ho : s.obj? (field m.body 0 4) = none) :
    objectDelete m s = s.refuse m stNoSuch := by
  unfold objectDelete
  simp only [ho]

section
variable {m : Msg} {s : State} {o : Obj} (ho : s.obj? (field m.body 0 4) = some o)
include ho

theorem objectDelete_of_opened (hs : o.state = .opened) : objectDelete m s = s.refuse m stNoSuch := by
  unfold objectDelete
  simp only [ho]
  exact if_pos hs

theorem objectDelete_of_notOwner (hs : o.state ≠ .opened) (hw : o.owner ≠ s.sender m) :
    objectDelete m s = s.refuse m stNotAllowed := by
  unfold objectDelete
  simp only [ho]
  exact (if_neg hs).trans (if_pos hw)

theorem objectDelete_of_retired (hs : o.state = .retired) (hw : o.owner = s.sender m) :
    objectDelete m s = s.refuse m stRetired := by
  unfold objectDelete
  simp only [ho, hs, hw, reduceCtorEq, ne_eq, not_true, if_false, if_true]

variable (hs : o.state = .complete) (hw : o.owner = s.sender m)
include hs hw

/-- R47 and R48 for an object that no album and no play holds. -/
theorem objectDelete_of_unheld (hc : o.albumCount + o.playCount = 0) :
    objectDelete m s =
      (s.unpend o, o.closeTasks ++ [.removeObject (field m.body 0 4), .send ((s.unpend o).replyTo m stOk [0])]) := by
  unfold objectDelete
  simp only [ho, hs, hw, hc, reduceCtorEq, ne_eq, not_true, if_false, if_true]
  rfl

/-- R47 for an object that an album or a play holds. -/
theorem objectDelete_of_held (hc : o.albumCount + o.playCount ≠ 0) :
    objectDelete m s =
      ((s.unpend o).retire (field m.body 0 4),
       o.closeTasks ++ (if o.recorded then [.append (.objectRetired (field m.body 0 4))] else []) ++
        [.send (((s.unpend o).retire (field m.body 0 4)).replyTo m stOk [1])]) := by
  unfold objectDelete
  simp only [ho, hs, hw, hc, reduceCtorEq, ne_eq, not_true, if_false]
  rfl

end

/-! ## Albums -/

/-- Every album is IN_USE. -/
theorem State.freeAlbum?_eq_none {s : State} (h : ∀ a < 64, (s.album? a).isSome = true) :
    s.tables.albums.toList.findIdx? (·.isNone) = none := by
  rw [List.findIdx?_eq_none_iff_findIdx_eq, List.findIdx_eq_length]
  intro x hx
  obtain ⟨a, ha, rfl⟩ := List.mem_iff_getElem.mp hx
  have hlt : a < 64 := by simpa using ha
  have hsome := h a hlt
  rw [s.album?_of_lt hlt] at hsome
  simpa using hsome

/-- The lowest-numbered FREE album. -/
theorem State.freeAlbum?_eq_some {s : State} {a : Nat} (ha : a < 64) (hn : s.album? a = none)
    (hb : ∀ b < a, (s.album? b).isSome = true) : s.tables.albums.toList.findIdx? (·.isNone) = some a := by
  rw [List.findIdx?_eq_some_iff_getElem]
  refine ⟨by simpa using ha, ?_, fun b hlt => ?_⟩
  · rw [s.album?_of_lt ha] at hn
    simp [hn]
  · have hsome := hb b hlt
    rw [s.album?_of_lt (hlt.trans ha)] at hsome
    simpa using Option.isSome_iff_ne_none.mp hsome

theorem albumCreate_of_full {m : Msg} {s : State} (h : s.tables.albums.toList.findIdx? (·.isNone) = none) :
    albumCreate m s = s.refuse m stBusy := by
  unfold albumCreate
  rw [h]

theorem albumCreate_of_free {m : Msg} {s : State} {a : Nat} (h : s.tables.albums.toList.findIdx? (·.isNone) = some a) :
    let v := s.setAlbum a (some { owner := s.sender m, label := m.body.take 32, entries := [] })
    albumCreate m s =
      (v, [.append (.albumMade a (s.sender m) (m.body.take 32)), .send (v.replyTo m stOk (be 1 a))]) := by
  unfold albumCreate
  rw [h]

/-! ## ALBUM-ADD -/

theorem State.addRefusal_of_badRange {s : State} {a : Nat} (id : Nat) (ha : 63 < a) : s.addRefusal a id = some stBadRange :=
  if_pos ha

section
variable {s : State} {a id : Nat} (ha : a ≤ 63)
include ha

theorem State.addRefusal_of_noAlbum (hal : s.album? a = none) : s.addRefusal a id = some stNoSuch := by
  unfold State.addRefusal
  simp only [Nat.not_lt.mpr ha, if_false, hal]

variable {al : Album} (hal : s.album? a = some al)
include hal

theorem State.addRefusal_of_noObject (ho : s.obj? id = none) : s.addRefusal a id = some stNoSuch := by
  unfold State.addRefusal
  simp only [Nat.not_lt.mpr ha, if_false, hal, ho]

variable {o : Obj} (ho : s.obj? id = some o)
include ho

theorem State.addRefusal_of_notComplete (hs : o.state = .opened ∨ o.state = .complete ∧ o.pending = true) :
    s.addRefusal a id = some stNotComplete := by
  unfold State.addRefusal
  simp [Nat.not_lt.mpr ha, hal, ho, hs]

theorem State.addRefusal_of_retired (hs : o.state = .retired) : s.addRefusal a id = some stRetired := by
  unfold State.addRefusal
  simp [Nat.not_lt.mpr ha, hal, ho, hs]

variable (hs : o.state = .complete) (hp : o.pending = false)
include hs hp

theorem State.addRefusal_of_duplicate (hm : id ∈ al.entries) : s.addRefusal a id = some stDuplicate := by
  unfold State.addRefusal
  simp [Nat.not_lt.mpr ha, hal, ho, hs, hp, hm]

variable (hm : id ∉ al.entries)
include hm

theorem State.addRefusal_of_full (hn : Config.albumEntries ≤ al.entries.length) : s.addRefusal a id = some stFull := by
  unfold State.addRefusal
  simp [Nat.not_lt.mpr ha, hal, ho, hs, hp, hm, hn]

theorem State.addRefusal_of_room (hn : al.entries.length < Config.albumEntries) : s.addRefusal a id = none := by
  unfold State.addRefusal
  simp [Nat.not_lt.mpr ha, hal, ho, hs, hp, hm, hn]

end

/-- R51: the album with an entry put in at a position. -/
def Album.put (al : Album) (p id : Nat) : Album := { al with entries := al.entries.take p ++ [id] ++ al.entries.drop p }

theorem Album.put_length {al : Album} {p : Nat} (id : Nat) (hp : p ≤ al.entries.length) :
    (al.put p id).entries.length = al.entries.length + 1 := by
  simp only [Album.put, List.length_append, List.length_take, List.length_drop, List.length_singleton]
  omega

theorem albumAdd_of_refusal {m : Msg} {s : State} {status : Nat}
    (h : s.addRefusal (byteAt m.body 0) (field m.body 1 4) = some status) : albumAdd m s = s.refuse m status := by
  unfold albumAdd
  simp only [h]

theorem albumAdd_of_taken {m : Msg} {s : State} {al : Album}
    (h : s.addRefusal (byteAt m.body 0) (field m.body 1 4) = none) (hal : s.album? (byteAt m.body 0) = some al) :
    let p := min (field m.body 5 2) al.entries.length
    let v := (s.setAlbum (byteAt m.body 0) (some (al.put p (field m.body 1 4)))).updObj (field m.body 1 4)
      fun o => { o with albumCount := o.albumCount + 1 }
    albumAdd m s = (v, [.append (.albumEntryAdded (byteAt m.body 0) (field m.body 1 4) p),
      .send (v.replyTo m stOk (be 2 p ++ be 2 (al.entries.length + 1)))]) := by
  intro p v
  rw [← al.put_length (field m.body 1 4) (Nat.min_le_right (field m.body 5 2) al.entries.length)]
  unfold albumAdd
  simp only [h, hal]
  rfl

/-! ## ALBUM-REMOVE and ALBUM-DROP -/

theorem albumRemove_of_badRange {m : Msg} {s : State} (ha : 63 < byteAt m.body 0) :
    albumRemove m s = s.refuse m stBadRange := if_pos ha

theorem albumDrop_of_badRange {m : Msg} {s : State} (ha : 63 < byteAt m.body 0) :
    albumDrop m s = s.refuse m stBadRange := if_pos ha

section
variable {m : Msg} {s : State} (ha : byteAt m.body 0 ≤ 63)
include ha

theorem albumRemove_of_noAlbum (hal : s.album? (byteAt m.body 0) = none) : albumRemove m s = s.refuse m stNoSuch := by
  unfold albumRemove
  simp only [Nat.not_lt.mpr ha, if_false, hal]

theorem albumDrop_of_noAlbum (hal : s.album? (byteAt m.body 0) = none) : albumDrop m s = s.refuse m stNoSuch := by
  unfold albumDrop
  simp only [Nat.not_lt.mpr ha, if_false, hal]

variable {al : Album} (hal : s.album? (byteAt m.body 0) = some al)
include hal

theorem albumRemove_of_noEntry (hm : field m.body 1 4 ∉ al.entries) : albumRemove m s = s.refuse m stNoSuch := by
  have hp : al.entries.findIdx? (· = field m.body 1 4) = none :=
    List.findIdx?_eq_none_iff.mpr fun x hx => decide_eq_false fun he => hm (he ▸ hx)
  unfold albumRemove
  simp only [Nat.not_lt.mpr ha, if_false, hal, hp]

theorem albumRemove_of_entry {p : Nat} (hp : al.entries.findIdx? (· = field m.body 1 4) = some p) :
    let v := s.setAlbum (byteAt m.body 0) (some { al with entries := al.entries.eraseIdx p })
    albumRemove m s = (v, [.append (.albumEntryRemoved (byteAt m.body 0) p), .albumFall (field m.body 1 4),
      .send (v.replyTo m stOk (be 2 p ++ be 2 (al.entries.eraseIdx p).length))]) := by
  unfold albumRemove
  simp only [Nat.not_lt.mpr ha, if_false, hal, hp]

theorem albumDrop_of_notOwner (hw : al.owner ≠ s.sender m) : albumDrop m s = s.refuse m stNotAllowed := by
  unfold albumDrop
  simp only [Nat.not_lt.mpr ha, if_false, hal]
  exact if_pos hw

theorem albumDrop_of_owner (hw : al.owner = s.sender m) :
    albumDrop m s = (s, [.append (.albumDropped (byteAt m.body 0))] ++
      al.entries.flatMap (fun id => [Task.takeEntry (byteAt m.body 0), .albumFall id]) ++
        [.freeAlbum (byteAt m.body 0), .send (s.replyTo m stOk (be 2 al.entries.length))]) := by
  unfold albumDrop
  simp only [Nat.not_lt.mpr ha, if_false, hal, hw, ne_eq, not_true]

end

/-! ## The statements -/

/-- Settles O34: by the refusals of R41 in their order; the ids by the circle on which the counter runs. -/
theorem objectBeginTakesTheCounter : Obligations.ObjectBeginTakesTheCounter := by
  intro s t m h hb hk u
  have hexec : exec (.objectBegin t) s = .next (State.finish (objectBegin m u)) :=
    message_dispatched h hb (isKind_of_kind hk)
  refine ⟨fun hr => next_of_noTasks hexec (objectBegin_of_noRun hr), fun r hr =>
    ⟨fun ho => next_of_noTasks hexec (objectBegin_of_notOwner hr ho),
     fun ho hc => next_of_noTasks hexec (objectBegin_of_closing hr ho hc),
     fun ho hc hn => next_of_noTasks hexec (objectBegin_of_busy hr ho hc hn),
     fun ho hc hn ht => next_of_noTasks hexec (objectBegin_of_full hr ho hc hn ht), fun ho hc hn ht => ?room⟩⟩
  case room =>
    intro id o used
    have hlen : used.length = (u.tables.objs ++ [o]).length := List.length_map ..
    have hcounter : (u.beginObject r o).tables.counter = nextObjectId used (used.length + 1) id := by rw [hlen]; rfl
    refine ⟨State.takeObjectId_of_unused, fun hlo hhi hfew => State.takeObjectId_new ⟨hlo, hhi⟩ hfew,
      u.beginObject r o, next_of_noTasks hexec (objectBegin_of_room hr ho hc hn ht), rfl, hcounter,
      fun hlo hhi hfew => ?_, rfl, rfl, rfl, rfl, rfl, rfl, rfl⟩
    have hid : IsObjectId id := ⟨hlo, hhi⟩
    rw [hcounter]
    exact ⟨hid.nextObjectId_notMem (Nat.lt_succ_self _) hfew, hid.next _⟩

/-- Settles O35: by what stops a name, by the names in turn, and by the state of the object. -/
theorem objectAppendTakesNamesInOrder : Obligations.ObjectAppendTakesNamesInOrder := by
  refine ⟨fun s o n => ⟨State.appendStop_of_fullList n, fun hl =>
      ⟨State.appendStop_of_fullRegion n hl, fun hr => ?stops⟩⟩,
    fun s id k => rfl, fun s id k n ns o ho => ⟨fun status hs => State.takeNames_of_stop k ns ho hs, fun e hs he => ?taken⟩,
    fun s t m h hb hk => ?request⟩
  case stops =>
    rw [State.appendStop_of_room n hl hr]
    exact ⟨fun he => congrArg Increment.stop (State.incrementAnswer_of_none he),
      fun e he => ⟨fun hs => congrArg Increment.stop (State.incrementAnswer_of_coming he hs), fun ha hc =>
        ⟨fun hlim => congrArg Increment.stop (State.incrementAnswer_of_limit he ha hc hlim),
         fun hlim => congrArg Increment.stop (State.incrementAnswer_of_ok he ha hc hlim)⟩⟩⟩
  case taken =>
    intro counted v
    rw [State.takeNames_of_taken k ns ho hs, State.takeName_eq id he]
    rfl
  case request =>
    intro u id
    have hexec : exec (.objectAppend t) s = .next (State.finish (objectAppend m u)) :=
      message_dispatched h hb (isKind_of_kind hk)
    exact ⟨fun ho => next_of_noTasks hexec (objectAppend_of_none ho), fun o ho =>
      ⟨fun hw => next_of_noTasks hexec (objectAppend_of_notOwner ho hw),
       fun hw hs => next_of_noTasks hexec (objectAppend_of_complete ho hw hs),
       fun hw hs => next_of_noTasks hexec (objectAppend_of_retired ho hw hs),
       fun hw hs => hexec.trans (by rw [objectAppend_of_opened ho hw hs])⟩⟩

/-- Settles O36: by the state of the object, its list, and whether every entry is settled. -/
theorem objectFinishCompletes : Obligations.ObjectFinishCompletes := by
  intro s t m h hb hk u id
  have hexec : exec (.objectFinish t) s = .next (State.finish (objectFinish m u)) :=
    message_dispatched h hb (isKind_of_kind hk)
  exact ⟨fun ho => next_of_noTasks hexec (objectFinish_of_none ho), fun o ho =>
    ⟨fun hw => next_of_noTasks hexec (objectFinish_of_notOwner ho hw),
     fun hw hs => next_of_noTasks hexec (objectFinish_of_retired ho hw hs),
     fun hw hs => next_of_noTasks hexec (objectFinish_of_complete ho hw hs),
     fun hw hs hn => next_of_noTasks hexec (objectFinish_of_empty ho hw hs hn),
     fun hw hs hn he => hexec.trans (by rw [objectFinish_of_settled ho hw hs hn he]; rfl),
     fun hw hs hn he => next_of_noTasks hexec (objectFinish_of_unsettled ho hw hs hn he)⟩⟩

/-- Settles O37: by the state of the object, by whether it is journal-pending, and by whether something holds it. -/
theorem objectDeleteRemovesOrRetires : Obligations.ObjectDeleteRemovesOrRetires := by
  intro s t m h hb hk u id
  have hexec : exec (.objectDelete t) s = .next (State.finish (objectDelete m u)) :=
    message_dispatched h hb (isKind_of_kind hk)
  refine ⟨fun ho => next_of_noTasks hexec (objectDelete_of_none ho), fun o ho =>
    ⟨fun hs => next_of_noTasks hexec (objectDelete_of_opened ho hs),
     fun hs hw => next_of_noTasks hexec (objectDelete_of_notOwner ho hs hw),
     fun hs hw => next_of_noTasks hexec (objectDelete_of_retired ho hs hw),
     fun hs hw hp hc => ?removed, fun hs hw hp hc => ?retired,
     fun hs hw hp r hr => ⟨fun hc => ?removedPending, fun hc => ?retiredPending⟩⟩⟩
  case removed =>
    rw [hexec, objectDelete_of_unheld ho hs hw hc, State.unpend_of_notPending u hp, Obj.closeTasks_of_notPending hp]
    rfl
  case retired =>
    rw [hexec, objectDelete_of_held ho hs hw hc, State.unpend_of_notPending u hp, Obj.closeTasks_of_notPending hp]
    rfl
  case removedPending =>
    rw [hexec, objectDelete_of_unheld ho hs hw hc, State.unpend_of_pending u hp hr, Obj.closeTasks_of_pending hp hr,
      State.id_of_obj? ho]
    rfl
  case retiredPending =>
    rw [hexec, objectDelete_of_held ho hs hw hc, State.unpend_of_pending u hp hr, Obj.closeTasks_of_pending hp hr,
      State.id_of_obj? ho]
    rfl

/-- Settles O38: by the lowest-numbered FREE album, if there is one. -/
theorem albumCreateTakesTheLowestFree : Obligations.AlbumCreateTakesTheLowestFree := by
  intro s t m h hb hk u
  have hexec : exec (.albumCreate t) s = .next (State.finish (albumCreate m u)) :=
    message_dispatched h hb (isKind_of_kind hk)
  exact ⟨fun hall => next_of_noTasks hexec (albumCreate_of_full (State.freeAlbum?_eq_none hall)),
    fun a ha hn hlow => hexec.trans (by rw [albumCreate_of_free (State.freeAlbum?_eq_some ha hn hlow)])⟩

/-- Settles O39: each request by its refusals, then by the album it changes. -/
theorem albumEntriesComeAndGo : Obligations.AlbumEntriesComeAndGo := by
  intro s t m h hb u a id
  refine ⟨fun hk => ?add, fun hk => ?remove, fun hk => ?drop⟩
  case add =>
    have hexec : exec (.albumAdd t) s = .next (State.finish (albumAdd m u)) :=
      message_dispatched h hb (isKind_of_kind hk)
    exact ⟨State.addRefusal_of_badRange id, State.addRefusal_of_noAlbum,
      fun al ha hal => ⟨State.addRefusal_of_noObject ha hal, fun o ho =>
        ⟨State.addRefusal_of_notComplete ha hal ho, State.addRefusal_of_retired ha hal ho, fun hs hp =>
          ⟨State.addRefusal_of_duplicate ha hal ho hs hp, State.addRefusal_of_full ha hal ho hs hp,
           State.addRefusal_of_room ha hal ho hs hp⟩⟩⟩,
      fun status hr => next_of_noTasks hexec (albumAdd_of_refusal hr),
      fun al hr hal => hexec.trans (by rw [albumAdd_of_taken hr hal]; rfl)⟩
  case remove =>
    have hexec : exec (.albumRemove t) s = .next (State.finish (albumRemove m u)) :=
      message_dispatched h hb (isKind_of_kind hk)
    exact ⟨fun ha => next_of_noTasks hexec (albumRemove_of_badRange ha),
      fun ha hal => next_of_noTasks hexec (albumRemove_of_noAlbum ha hal),
      fun al ha hal => ⟨fun hm => next_of_noTasks hexec (albumRemove_of_noEntry ha hal hm),
        fun p hp => hexec.trans (by rw [albumRemove_of_entry ha hal hp])⟩⟩
  case drop =>
    have hexec : exec (.albumDrop t) s = .next (State.finish (albumDrop m u)) :=
      message_dispatched h hb (isKind_of_kind hk)
    exact ⟨fun ha => next_of_noTasks hexec (albumDrop_of_badRange ha),
      fun ha hal => next_of_noTasks hexec (albumDrop_of_noAlbum ha hal),
      fun al ha hal => ⟨fun hw => next_of_noTasks hexec (albumDrop_of_notOwner ha hal hw),
        fun hw => hexec.trans (by rw [albumDrop_of_owner ha hal hw])⟩⟩

end Sys2Proof.Machine
end

section
/-! SUPPORT and PROOFS. Backup runs, offers and checks (Chapter 4): the run id counter, what each request, timer and lane makes of
each case it can meet, said once, and the statements about them. -/

namespace Sys2Proof.Machine

/-! ## The run id counter -/

/-- The value after a run id, in use or not: from 65,535 to 1 (R57). -/
def runIdAfter (c : Nat) : Nat := if 65535 ≤ c then 1 else c + 1

/-- The ids a run can have (R57). -/
def IsRunId (c : Nat) : Prop := 1 ≤ c ∧ c ≤ 65535

theorem IsRunId.after_eq {c : Nat} (h : IsRunId c) : runIdAfter c = c % 65535 + 1 := by
  unfold IsRunId at h
  unfold runIdAfter
  split <;> omega

theorem IsRunId.after {c : Nat} (h : IsRunId c) : IsRunId (runIdAfter c) := by
  unfold IsRunId runIdAfter at *
  split <;> omega

section
variable {s : State}

theorem State.nextRunId_of_used {c : Nat} (n : Nat) (h : s.runIdUsed (runIdAfter c) = true) :
    s.nextRunId (n + 1) c = s.nextRunId n (runIdAfter c) := if_pos h

theorem State.nextRunId_of_unused {c : Nat} (n : Nat) (h : ¬s.runIdUsed (runIdAfter c) = true) :
    s.nextRunId (n + 1) c = runIdAfter c := if_neg h

theorem IsRunId.next (n : Nat) {c : Nat} (h : IsRunId c) : IsRunId (s.nextRunId n c) := by
  induction n generalizing c with
  | zero => exact h
  | succ n ih =>
    by_cases hu : s.runIdUsed (runIdAfter c) = true
    · rw [State.nextRunId_of_used n hu]
      exact ih h.after
    · rw [State.nextRunId_of_unused n hu]
      exact h.after

/-- The search finds an id not in use where there is one among the next `n` of the circle of ids. -/
theorem IsRunId.nextRunId_unused (n : Nat) {c : Nat} (h : IsRunId c)
    (hfree : ∃ j < n, s.runIdUsed ((c + j) % 65535 + 1) = false) : s.runIdUsed (s.nextRunId n c) = false := by
  induction n generalizing c with
  | zero =>
    obtain ⟨j, hj, _⟩ := hfree
    exact absurd hj (Nat.not_lt_zero j)
  | succ n ih =>
    by_cases hu : s.runIdUsed (runIdAfter c) = true
    · rw [State.nextRunId_of_used n hu]
      obtain ⟨j, hj, hused⟩ := hfree
      cases j with
      | zero =>
        rw [h.after_eq] at hu
        exact absurd (hu.symm.trans hused) (by decide)
      | succ j =>
        refine ih h.after ⟨j, Nat.lt_of_succ_lt_succ hj, ?_⟩
        rwa [h.after_eq, show (c % 65535 + 1 + j) % 65535 = (c + (j + 1)) % 65535 by omega]
    · rw [State.nextRunId_of_unused n hu]
      exact Bool.eq_false_iff.mpr hu

theorem State.runIdsSpent_iff : s.runIdsSpent = true ↔ ∀ n, 1 ≤ n → n ≤ 65535 → s.runIdUsed n = true := by
  simp only [State.runIdsSpent, List.all_eq_true, List.mem_range]
  refine ⟨fun h n hlo hhi => ?_, fun h n hn => h (n + 1) (by omega) (by omega)⟩
  have hpred := h (n - 1) (by omega)
  rwa [Nat.sub_add_cancel hlo] at hpred

/-- R57: the counter's value is the new run's id, where it is not in use. -/
theorem State.takeRunId_of_unused (h : s.runIdUsed s.ingest.counter = false) : s.takeRunId = s.ingest.counter :=
  if_neg (Bool.eq_false_iff.mp h)

/-- Assumption log 16: where the counter's value is in use, the next one not in use is the new run's id. -/
theorem State.takeRunId_of_used (h : s.runIdUsed s.ingest.counter = true) :
    s.takeRunId = s.nextRunId 65535 s.ingest.counter := if_pos h

/-- While an id is not in use, one lap of the circle comes to one. -/
theorem State.takeRunId_new (hc : IsRunId s.ingest.counter) (hs : ¬s.runIdsSpent = true) :
    s.runIdUsed s.takeRunId = false ∧ IsRunId s.takeRunId := by
  cases hu : s.runIdUsed s.ingest.counter with
  | false =>
    rw [State.takeRunId_of_unused hu]
    exact ⟨hu, hc⟩
  | true =>
    rw [State.takeRunId_of_used hu]
    refine ⟨hc.nextRunId_unused 65535 ?_, hc.next 65535⟩
    simp only [State.runIdsSpent_iff, not_forall, Bool.not_eq_true] at hs
    obtain ⟨d, hlo, hhi, hd⟩ := hs
    obtain ⟨hclo, hchi⟩ := hc
    refine ⟨(d - 1 + 65535 - s.ingest.counter) % 65535, Nat.mod_lt _ (by decide), ?_⟩
    rwa [show (s.ingest.counter + (d - 1 + 65535 - s.ingest.counter) % 65535) % 65535 + 1 = d by omega]

end

/-! ## RUN-OPEN -/

/-- A peer's RUN-OPEN gets BUSY (R58). -/
def State.runBusy (s : State) (owner : Nat) : Prop :=
  Config.runPlaces ≤ s.ingest.runs.length ∨ Config.runsPerPeer ≤ s.ingest.runs.countP (fun r => r.owner = owner) ∨
    s.runIdsSpent = true

/-- The state in which a peer's new run is listed, and the counter has gone on (R57, R58). -/
def State.openRun (s : State) (owner : Nat) : State :=
  let v : State := { s with ingest.runs := s.ingest.runs ++ [newRun s.takeRunId owner s.now] }
  { v with ingest.counter := v.nextRunId 65535 s.takeRunId }

section
variable {m : Msg} {s : State}

theorem runOpen_of_busy (hb : s.runBusy (s.sender m)) : runOpen m s = s.refuse m stBusy :=
  if_pos (by simpa [State.runBusy, or_assoc] using hb)

theorem runOpen_of_room (hb : ¬s.runBusy (s.sender m)) :
    runOpen m s = ((s.openRun (s.sender m)).reply m stOk (be 2 s.takeRunId), []) :=
  if_neg (by simpa [State.runBusy, or_assoc] using hb)

/-! ## RUN-ABORT and the idle timeout -/

theorem runAbort_of_noRun (hr : s.run? (field m.body 0 2) = none) : runAbort m s = s.refuse m stNoSuch := by
  unfold runAbort
  simp only [hr]

theorem runAbort_of_notOwner {r : Run} (hr : s.run? (field m.body 0 2) = some r) (ho : r.owner ≠ s.sender m) :
    runAbort m s = s.refuse m stNotAllowed := by
  unfold runAbort
  simp only [hr]
  exact if_pos ho

theorem runAbort_of_owner {r : Run} (hr : s.run? (field m.body 0 2) = some r) (ho : r.owner = s.sender m) :
    runAbort m s = (s, [.endRun (field m.body 0 2),
      .send (s.replyTo m stOk (be 1 (s.receiving (field m.body 0 2)).length ++ be 1 r.objects.length))]) := by
  unfold runAbort
  simp only [hr]
  exact if_neg (not_not.mpr ho)

/-- R59: an OPEN run not heard of for 300 s. -/
theorem runIdleTimeout_of_due {id : Nat} {r : Run} (hr : s.run? id = some r) (hc : r.closing = false)
    (hd : r.heard + Config.runIdle ≤ s.now) : runIdleTimeout id s = (s, [.endRun id]) := by
  unfold runIdleTimeout
  simp only [hr, hc, hd, Bool.not_false, decide_true, Bool.and_self, if_true]

/-- R59: a run that is closing, or heard of since. -/
theorem runIdleTimeout_of_not_due {id : Nat} {r : Run} (hr : s.run? id = some r)
    (hn : r.closing = true ∨ s.now < r.heard + Config.runIdle) : runIdleTimeout id s = s.idle := by
  unfold runIdleTimeout
  simp only [hr]
  refine if_neg fun hd => ?_
  simp only [Bool.and_eq_true, Bool.not_eq_true', decide_eq_true_eq] at hd
  obtain ⟨hopen, hle⟩ := hd
  rcases hn with hc | hlt
  · exact absurd (hc.symm.trans hopen) (by decide)
  · exact Nat.not_lt.mpr hle hlt

/-! ## RUN-CLOSE -/

/-- R62 for the sender's last closed run. -/
theorem runClose_of_last (hr : s.run? (field m.body 0 2) = none)
    (hl : (s.peer (s.sender m)).bind (·.lastRun) = some (field m.body 0 2)) :
    runClose m s = (s.reply m stOk (be 2 (field m.body 0 2)), []) := by
  unfold runClose
  simp only [hr]
  exact if_pos hl

theorem runClose_of_noRun (hr : s.run? (field m.body 0 2) = none)
    (hl : (s.peer (s.sender m)).bind (·.lastRun) ≠ some (field m.body 0 2)) : runClose m s = s.refuse m stNoSuch := by
  unfold runClose
  simp only [hr]
  exact if_neg hl

section
variable {r : Run} (hr : s.run? (field m.body 0 2) = some r)
include hr

theorem runClose_of_notOwner (ho : r.owner ≠ s.sender m) : runClose m s = s.refuse m stNotAllowed := by
  unfold runClose
  simp only [hr]
  exact if_pos ho

variable (ho : r.owner = s.sender m)
include ho

/-- R62: the REPLY of a CLOSING run goes to the latest RUN-CLOSE. -/
theorem runClose_of_closing (hc : r.closing = true) :
    runClose m s =
      (s.updRun (field m.body 0 2) fun r => { r with reply := some { seq := m.seq, addr := m.src } }, []) := by
  unfold runClose
  simp only [hr, ho, hc, ne_eq, not_true, if_false, if_true]

/-- R62: an OPEN run becomes CLOSING and its OPEN objects are discarded. -/
theorem runClose_of_open (hc : r.closing = false) :
    runClose m s =
      (s.updRun (field m.body 0 2) fun r =>
        { r with closing := true, reply := some { seq := m.seq, addr := m.src }, reclaimed := false, objects := [] },
       r.objects.map Task.discardObject ++ [.closeZero (field m.body 0 2)]) := by
  unfold runClose
  simp only [hr, ho, hc, ne_eq, not_true, Bool.false_eq_true, if_false]

end

end

/-! ## The verdict of an offered item -/

section
variable {s : State} (owner : Nat) {i : OfferItem}

theorem State.verdict_of_badLength (hl : i.length = 0 ∨ Config.maxChunk < i.length) : s.verdict owner i = stBadRange :=
  if_pos (by simpa using hl)

/-- The length of the item is in the range of R68. -/
theorem OfferItem.length_good (hlo : 1 ≤ i.length) (hhi : i.length ≤ Config.maxChunk) :
    ¬(i.length = 0 || Config.maxChunk < i.length) = true := by
  simp only [Bool.or_eq_true, decide_eq_true_eq]
  omega

variable (hl : ¬(i.length = 0 || Config.maxChunk < i.length) = true)
include hl

theorem State.verdict_of_broken (hb : s.store.cond = some .broken) : s.verdict owner i = stDiskFault := by
  unfold State.verdict
  simp only [hl, State.broken, hb, decide_true, Bool.false_eq_true, if_false, if_true]

variable (hb : s.store.cond ≠ some .broken)
include hb

section
variable {e : Entry} (he : s.entry? i.name = some e)
include he

theorem State.verdict_of_held (hs : e.state = .staged ∨ e.state = .striping ∨ e.state = .stored) :
    s.verdict owner i = stHave := by
  unfold State.verdict
  rcases hs with hs | hs | hs <;> simp only [hl, State.broken, hb, decide_false, Bool.false_eq_true, if_false, he, hs]

theorem State.verdict_of_coming (hs : e.state = .arriving ∨ e.state = .checking) : s.verdict owner i = stInflight := by
  unfold State.verdict
  rcases hs with hs | hs <;> simp only [hl, State.broken, hb, decide_false, Bool.false_eq_true, if_false, he, hs]

theorem State.verdict_of_lostOther (hs : e.state = .lost) (hn : e.length ≠ i.length ∨ e.check ≠ i.check) :
    s.verdict owner i = stBadRange := by
  unfold State.verdict
  simp only [hl, State.broken, hb, decide_false, Bool.false_eq_true, if_false, he, hs, Bool.or_eq_true, decide_eq_true_eq,
    hn, if_true]

theorem State.verdict_of_lostSame (hs : e.state = .lost) (hn : e.length = i.length) (hc : e.check = i.check) :
    s.verdict owner i = if s.noRoom i then stWait else stSend := by
  unfold State.verdict
  simp only [hl, State.broken, hb, decide_false, Bool.false_eq_true, if_false, he, hs, hn, hc, ne_eq, not_true, Bool.or_self]

end

section
variable (he : s.entry? i.name = none)
include he

theorem State.verdict_of_fullIndex (hx : s.loader.image.indexCapacity ≤ s.index.length) : s.verdict owner i = stFull := by
  unfold State.verdict
  simp only [hl, State.broken, hb, decide_false, Bool.false_eq_true, if_false, he, hx, if_true]

variable (hx : s.index.length < s.loader.image.indexCapacity)
include hx

theorem State.verdict_of_quotaSpent {p : Peer} (hp : s.peer owner = some p) (hq : p.quota ≤ p.charged) :
    s.verdict owner i = stQuota := by
  unfold State.verdict
  simp only [hl, State.broken, hb, decide_false, Bool.false_eq_true, if_false, he, Nat.not_le.mpr hx, hp, Option.any_some, hq,
    decide_true, if_true]

theorem State.verdict_of_newEntry {p : Peer} (hp : s.peer owner = some p) (hq : p.charged < p.quota) :
    s.verdict owner i = if s.noRoom i then stWait else stSend := by
  unfold State.verdict
  simp only [hl, State.broken, hb, decide_false, Bool.false_eq_true, if_false, he, Nat.not_le.mpr hx, hp, Option.any_some,
    Nat.not_le.mpr hq]

end

end

/-! ## An item given SEND -/

@[simp] theorem State.entry?_setPages (s : State) (pages : List Nat) (c : PageCond) (n : Name) :
    (s.setPages pages c).entry? n = s.entry? n := rfl

@[simp] theorem State.entry?_setArrival (s : State) (k : Fin 32) (r : ArrivalRec) (n : Name) :
    (s.setArrival k r).entry? n = s.entry? n := rfl

@[simp] theorem State.peer_setPages (s : State) (pages : List Nat) (c : PageCond) (n : Nat) :
    (s.setPages pages c).peer n = s.peer n := rfl

/-- Two states that agree on all but the clock, the Content Index, the Link Front and the store. -/
structure State.SameUnits (s t : State) : Prop where
  ingest : t.ingest = s.ingest
  buf : t.buf = s.buf
  tables : t.tables = s.tables
  slots : t.slots = s.slots
  bays : t.bays = s.bays
  journal : t.journal = s.journal
  power : t.power = s.power

theorem State.SameUnits.updRun {s t : State} (h : s.SameUnits t) (id : Nat) (f : Run → Run) :
    (s.updRun id f).SameUnits (t.updRun id f) where
  ingest := by
    unfold State.updRun
    rw [h.ingest]
  buf := h.buf
  tables := h.tables
  slots := h.slots
  bays := h.bays
  journal := h.journal
  power := h.power

/-- The segments of 1 KiB that a chunk takes (R69). -/
theorem segmentsFor_eq (length : Nat) : segmentsFor length = (length + 1023) / 1024 := by
  unfold segmentsFor Config.segmentBytes
  omega

/-- R69: the record of an arrival that has just begun. -/
theorem newArrival_eq (i : OfferItem) (run owner tag now : Nat) :
    newArrival i run owner tag now =
      { name := i.name, run := run, owner := owner, ownerTag := tag, length := i.length, segments := (i.length + 1023) / 1024
        got := [], check := i.check, last := now, checking := false } := by
  unfold newArrival
  rw [segmentsFor_eq]

/-- What an item given SEND takes whatever its entry: its pages and its arrival record (R69). -/
def State.takeArrival (s : State) (pages : List Nat) (run owner : Nat) (i : OfferItem) (k : Fin 32) : State :=
  (s.setPages pages .reserved).setArrival k
    { gen := s.ingest.arrivals[k].gen, use := some (newArrival i run owner (((s.peer owner).map (·.tag)).getD 0) s.now) }

/-- R22: a new entry is made and charged to the sender. -/
theorem State.createEntry_newEntry (s : State) (name : Name) (length check run owner : Nat) (pages : List Nat) :
    s.createEntry (newEntry name length check run owner pages) =
      ({ s with index := s.index ++ [newEntry name length check run owner pages] } : State).updPeer owner fun p =>
        { p with charged := p.charged + 1 } := rfl

/-- R28: the LOST entry is ARRIVING again, and its location is its prior state. -/
def State.arriveAgain (s : State) (e : Entry) (run : Nat) (pages : List Nat) : State :=
  s.updEntry e.name fun e => { e with state := .arriving, prior := e.loc, loc := none, pages := pages, origin := some run }

theorem State.createEntry_sameUnits (s : State) (e : Entry) : s.SameUnits (s.createEntry e) := by
  unfold State.createEntry
  cases e.payer <;> exact ⟨rfl, rfl, rfl, rfl, rfl, rfl, rfl⟩

theorem State.reingest_of_noLoc (s : State) {e : Entry} (run : Nat) (pages : List Nat) (hl : e.loc = none) :
    s.reingest e run pages = s.arriveAgain e run pages := by
  unfold State.reingest
  simp only [hl]
  rfl

/-- R28: a stripe's chunk goes from its live count to its hold count. -/
def Stripe.liveToHold (r : Stripe) : Stripe := { r with live := r.live - 1, hold := r.hold + 1 }

theorem State.updStripe_updStripe (s : State) (n : Nat) (f g : Stripe → Stripe) :
    (s.updStripe n f).updStripe n g = s.updStripe n (g ∘ f) := by
  unfold State.updStripe
  simp only [List.map_map]
  congr 3
  funext p
  by_cases hn : p.1 = n <;> simp [hn]

theorem State.reingest_of_loc (s : State) {e : Entry} {l : Loc} (run : Nat) (pages : List Nat) (hl : e.loc = some l) :
    s.reingest e run pages = (s.arriveAgain e run pages).updStripe l.1 Stripe.liveToHold := by
  unfold State.reingest
  simp only [hl]
  exact State.updStripe_updStripe ..

theorem State.reingest_sameUnits (s : State) (e : Entry) (run : Nat) (pages : List Nat) :
    s.SameUnits (s.reingest e run pages) := by
  unfold State.reingest
  cases e.loc <;> exact ⟨rfl, rfl, rfl, rfl, rfl, rfl, rfl⟩

/-- The stripe that an entry's location is in, to be judged. -/
def Entry.stripeTask (e : Entry) : List Task := e.loc.toList.map fun l => .judgeStripe l.1

/-- The effects of an item given SEND on the pages it is granted, whichever they are (R69). -/
def State.sendItemOn (s : State) (pages : List Nat) (run owner : Nat) (i : OfferItem) (k : Fin 32) : State × List Task :=
  let v := s.takeArrival pages run owner i k
  let w := match s.entry? i.name with
    | none => v.createEntry (newEntry i.name i.length i.check run owner pages)
    | some e => v.reingest e run pages
  (w.updRun run fun r => { r with inFlight := r.inFlight + 1 }, ((s.entry? i.name).map (·.stripeTask)).getD [])

/-- The item is granted the lowest-numbered FREE pages (assumption log 12). -/
theorem State.sendItem_eq {s : State} {i : OfferItem} {pages : List Nat} (hp : s.pickPages (pagesFor i.length) = pages)
    (run owner : Nat) (k : Fin 32) : s.sendItem run owner i k = s.sendItemOn pages run owner i k := by
  unfold State.sendItem State.sendItemOn
  simp only [hp, State.entry?_setArrival, State.entry?_setPages]
  cases s.entry? i.name with
  | none => rfl
  | some e =>
    simp only [Option.bind_some, Option.map_some, Option.getD_some, Entry.stripeTask]
    cases e.loc <;> rfl

section
variable (s : State) (pages : List Nat) (run owner : Nat) (i : OfferItem) (k : Fin 32)

theorem State.sendItemOn_of_new (he : s.entry? i.name = none) :
    s.sendItemOn pages run owner i k =
      (((s.takeArrival pages run owner i k).createEntry (newEntry i.name i.length i.check run owner pages)).updRun run
        fun r => { r with inFlight := r.inFlight + 1 }, []) := by
  unfold State.sendItemOn
  simp only [he]
  rfl

theorem State.sendItemOn_of_lost {e : Entry} (he : s.entry? i.name = some e) :
    s.sendItemOn pages run owner i k =
      (((s.takeArrival pages run owner i k).reingest e run pages).updRun run
        fun r => { r with inFlight := r.inFlight + 1 }, e.stripeTask) := by
  unfold State.sendItemOn
  simp only [he]
  rfl

/-- R22: the new entry is charged to the sender, and no stripe is to be judged. -/
theorem State.sendItemOn_new (he : s.entry? i.name = none) :
    let w := s.sendItemOn pages run owner i k
    w.1.index = s.index ++ [newEntry i.name i.length i.check run owner pages] ∧
      w.1.link = (s.updPeer owner fun p => { p with charged := p.charged + 1 }).link ∧ w.1.store = s.store ∧ w.2 = [] := by
  rw [State.sendItemOn_of_new s pages run owner i k he, State.createEntry_newEntry]
  exact ⟨rfl, rfl, rfl, rfl⟩

/-- R28: the LOST entry is ARRIVING again, and the stripe of its old location is to be judged. -/
theorem State.sendItemOn_lost {e : Entry} (he : s.entry? i.name = some e) :
    let w := s.sendItemOn pages run owner i k
    w.1.index = (s.arriveAgain e run pages).index ∧ w.1.link = s.link ∧ (e.loc = none → w.2 = [] ∧ w.1.store = s.store) ∧
      ∀ l, e.loc = some l → w.2 = [.judgeStripe l.1] ∧
        w.1.store.table = (s.updStripe l.1 Stripe.liveToHold).store.table := by
  rw [State.sendItemOn_of_lost s pages run owner i k he, Entry.stripeTask]
  cases hl : e.loc with
  | none =>
    rw [State.reingest_of_noLoc _ run _ hl]
    exact ⟨rfl, rfl, fun _ => ⟨rfl, rfl⟩, (fun _ h => nomatch h)⟩
  | some l =>
    rw [State.reingest_of_loc _ run _ hl]
    refine ⟨rfl, rfl, (fun h => nomatch h), fun l' h => ?_⟩
    cases h
    exact ⟨rfl, rfl⟩

end

/-- What an item given SEND does whatever its entry: its pages are RESERVED, its arrival is the record's, its run has one arrival
more in flight, and no other arrival or unit changes (R69). -/
structure State.ItemSent (s : State) (pages : List Nat) (run : Nat) (k : Fin 32) (a : Arrival) (v : State) : Prop where
  pool : v.buf.pool = (s.setPages pages .reserved).buf.pool
  arrival : v.arrival? k = some a
  number : v.arrivalNumber k = s.arrivalNumber k
  others : ∀ j, j ≠ k → v.arrival? j = s.arrival? j
  runs : v.ingest.runs = (s.updRun run fun r => { r with inFlight := r.inFlight + 1 }).ingest.runs
  tables : v.tables = s.tables
  slots : v.slots = s.slots
  bays : v.bays = s.bays
  journal : v.journal = s.journal
  power : v.power = s.power

theorem State.takeArrival_sent (s : State) (pages : List Nat) (run : Nat) {owner : Nat} (i : OfferItem) (k : Fin 32) {p : Peer}
    (hp : s.peer owner = some p) :
    s.ItemSent pages run k (newArrival i run owner p.tag s.now)
      ((s.takeArrival pages run owner i k).updRun run fun r => { r with inFlight := r.inFlight + 1 }) where
  pool := rfl
  arrival := by
    have hset := State.arrival?_setArrival_same (s.setPages pages .reserved) k
      { gen := s.ingest.arrivals[k].gen, use := some (newArrival i run owner p.tag s.now) }
    simpa [State.takeArrival, hp, State.arrival?] using hset
  number := State.arrivalNumber_setArrival ..
  others _ hj := State.arrival?_setArrival_other _ _ hj
  runs := rfl
  tables := rfl
  slots := rfl
  bays := rfl
  journal := rfl
  power := rfl

/-- The change of the item's entry touches nothing of what every item given SEND does. -/
theorem State.ItemSent.of_sameUnits {s v w : State} {pages : List Nat} {run : Nat} {k : Fin 32} {a : Arrival}
    (h : s.ItemSent pages run k a v) (hw : v.SameUnits w) : s.ItemSent pages run k a w where
  pool := (congrArg (·.pool) hw.buf).trans h.pool
  arrival := by
    unfold State.arrival?
    rw [hw.ingest]
    exact h.arrival
  number := by
    unfold State.arrivalNumber
    rw [hw.ingest]
    exact h.number
  others j hj := by
    unfold State.arrival?
    rw [hw.ingest]
    exact h.others j hj
  runs := (congrArg (·.runs) hw.ingest).trans h.runs
  tables := hw.tables.trans h.tables
  slots := hw.slots.trans h.slots
  bays := hw.bays.trans h.bays
  journal := hw.journal.trans h.journal
  power := hw.power.trans h.power

theorem State.sendItemOn_sent (s : State) (pages : List Nat) (run : Nat) {owner : Nat} (i : OfferItem) (k : Fin 32) {p : Peer}
    (hp : s.peer owner = some p) :
    s.ItemSent pages run k (newArrival i run owner p.tag s.now) (s.sendItemOn pages run owner i k).1 := by
  refine (s.takeArrival_sent pages run i k hp).of_sameUnits ?_
  cases he : s.entry? i.name with
  | none =>
    rw [State.sendItemOn_of_new s pages run owner i k he]
    exact (State.createEntry_sameUnits ..).updRun ..
  | some e =>
    rw [State.sendItemOn_of_lost s pages run owner i k he]
    exact (State.reingest_sameUnits ..).updRun ..

/-! ## OFFER -/

@[simp] theorem State.offerAll_nil (s : State) (run owner : Nat) : s.offerAll run owner [] = (s, [], []) := rfl

/-- An item given SEND with a free arrival record takes it, and the REPLY carries its arrival number (R67, R69). -/
theorem State.offerAll_of_send {s : State} (run : Nat) {owner : Nat} {i : OfferItem} (is : List OfferItem) {k : Fin 32}
    (hv : s.verdict owner i = stSend) (hk : s.freeArrivalNo = some k) :
    s.offerAll run owner (i :: is) =
      let p := s.sendItem run owner i k
      let r := p.1.offerAll run owner is
      (r.1, p.2 ++ r.2.1, byteOf stSend :: be 2 (s.arrivalNumber k) ++ r.2.2) := by
  rw [State.offerAll]
  simp only [hv, hk, if_true]

/-- The REPLY to an OFFER carries a verdict of three bytes for each item (R67). -/
theorem State.offerAll_length (run owner : Nat) (is : List OfferItem) :
    ∀ s : State, (s.offerAll run owner is).2.2.length = 3 * is.length := by
  induction is with
  | nil => exact fun _ => rfl
  | cons i is ih =>
    intro s
    rw [State.offerAll]
    split <;>
      · simp only [List.length_append, List.length_cons, ih, be, List.length_nil]
        omega

/-- The free arrival record of the lowest number is free, and every one below it is in use (R69). -/
theorem State.of_freeArrivalNo {s : State} {k : Fin 32} (hk : s.freeArrivalNo = some k) :
    (∀ j < k, s.arrival? j ≠ none) ∧ s.arrival? k = none := by
  obtain ⟨hfree, n, hn, hat, hbelow⟩ := List.find?_eq_some_iff_getElem.mp (hk :)
  refine ⟨fun j hj => ?_, Option.isNone_iff_eq_none.mp hfree⟩
  have hnk : n = k := by simpa [arrivalNos] using congrArg Fin.val hat
  simpa [arrivalNos, Option.isSome_iff_ne_none] using hbelow j (hnk ▸ hj)

section
variable {m : Msg} {s : State}

theorem offer_of_noRun (hr : s.run? (field m.body 0 2) = none) : offer m s = s.refuse m stNoSuch := by
  unfold offer
  simp only [hr]

section
variable {r : Run} (hr : s.run? (field m.body 0 2) = some r)
include hr

theorem offer_of_notOwner (ho : r.owner ≠ s.sender m) : offer m s = s.refuse m stNotAllowed := by
  unfold offer
  simp only [hr]
  exact if_pos ho

variable (ho : r.owner = s.sender m)
include ho

theorem offer_of_closing (hc : r.closing = true) : offer m s = s.refuse m stClosing := by
  unfold offer
  simp only [hr, ho, hc, ne_eq, not_true, if_false, if_true]

theorem offer_of_open (hc : r.closing = false) :
    offer m s =
      let a := s.offerAll (field m.body 0 2) r.owner (offerItems m.body)
      (a.1.reply m stOk (be 1 (offerItems m.body).length ++ a.2.2), a.2.1) := by
  unfold offer
  simp only [hr, ho, hc, ne_eq, not_true, Bool.false_eq_true, if_false]

end

end

/-! ## The timeout of an arrival -/

/-- R73: a RECEIVING arrival that has accepted no segment for 10 s. -/
theorem arrivalTimeout_of_due {s : State} {k : Fin 32} {a : Arrival} (ha : s.arrival? k = some a) (hc : a.checking = false)
    (hd : a.last + Config.arrivalIdle ≤ s.now) : arrivalTimeout k s = (s, [.abandonArrival k .timeout]) := by
  unfold arrivalTimeout
  simp only [ha, hc, hd, Bool.not_false, decide_true, Bool.and_self, if_true]

/-- R73: an arrival that is being checked, or is younger. -/
theorem arrivalTimeout_of_not_due {s : State} {k : Fin 32} {a : Arrival} (ha : s.arrival? k = some a)
    (hn : a.checking = true ∨ s.now < a.last + Config.arrivalIdle) : arrivalTimeout k s = s.idle := by
  unfold arrivalTimeout
  rcases hn with hc | hlt
  · simp only [ha, hc, Bool.not_true, Bool.false_and, Bool.false_eq_true, if_false]
  · simp only [ha, Nat.not_le.mpr hlt, decide_false, Bool.and_false, Bool.false_eq_true, if_false]

/-! ## Check Lanes -/

theorem State.inDeep_of_deep {s : State} (hd : s.power.state = .deep) : s.inDeep = true := decide_eq_true hd

theorem State.inDeep_of_not_deep {s : State} (hd : s.power.state ≠ .deep) : ¬s.inDeep = true :=
  fun h => hd (of_decide_eq_true h)

section
variable {s : State} (verifyFirst : Bool)

/-- R72 and R85 with nothing waiting. -/
theorem State.refillCheck_of_none (hi : s.ingest.checkWait = []) (hv : s.buf.verifyWait = []) :
    s.refillCheck verifyFirst = s := by
  unfold State.refillCheck
  simp only [hi, hv]

/-- R72 with ingest items waiting. -/
theorem State.refillCheck_of_ingest {i : CheckItem} {is : List CheckItem} (hi : s.ingest.checkWait = i :: is)
    (hv : s.buf.verifyWait = []) :
    s.refillCheck verifyFirst = { s with ingest.checkWait := is, ingest.queue := s.ingest.queue ++ [i] } := by
  unfold State.refillCheck
  simp only [hi, hv]

/-- R85 with read-verify items waiting. -/
theorem State.refillCheck_of_verify {v : CheckItem} {vs : List CheckItem} (hi : s.ingest.checkWait = [])
    (hv : s.buf.verifyWait = v :: vs) :
    s.refillCheck verifyFirst = { s with buf.verifyWait := vs, ingest.queue := s.ingest.queue ++ [v] } := by
  unfold State.refillCheck
  simp only [hi, hv]

@[simp] theorem State.refillCheck_lanes : (s.refillCheck verifyFirst).ingest.lanes = s.ingest.lanes := by
  unfold State.refillCheck
  split
  case h_4 => split <;> rfl
  all_goals rfl

/-- A lane has taken an item, which leaves these on the check queue (R75). -/
def State.giveLane (s : State) (l : Fin 2) (i : CheckItem) (is : List CheckItem) : State :=
  { s with ingest.lanes := s.ingest.lanes.set l (some i), ingest.queue := is }

/-- R168: the engines are stopped in DEEP. -/
theorem State.laneTake_of_deep (l : Fin 2) (hd : s.power.state = .deep) : s.laneTake l verifyFirst = s :=
  if_pos (State.inDeep_of_deep hd)

/-- R75: an idle lane takes the head of the check queue. -/
theorem State.laneTake_of_idle {l : Fin 2} {i : CheckItem} {is : List CheckItem} (hd : s.power.state ≠ .deep)
    (hl : s.ingest.lanes[l] = none) (hq : s.ingest.queue = i :: is) :
    s.laneTake l verifyFirst = ((s.giveLane l i is).refillCheck verifyFirst).issue (laneRequester l) i.length := by
  unfold State.laneTake
  simp only [State.inDeep_of_not_deep hd, Bool.false_eq_true, if_false, hl, hq]
  rfl

end

section
variable {s : State} {l : Fin 2}

theorem checkResultIngest_of_deep (hd : s.power.state = .deep) : checkResultIngest l s = s.idle :=
  if_pos (State.inDeep_of_deep hd)

theorem checkResultVerify_of_deep (hd : s.power.state = .deep) : checkResultVerify l s = s.idle :=
  if_pos (State.inDeep_of_deep hd)

variable (hd : s.power.state ≠ .deep)
include hd

section
variable {number : Nat} {name : Name} {length : Nat} {pages : List Nat} {check : Nat} {k : Fin 32}
  (hl : s.ingest.lanes[l] = some (.ingest number name length pages check)) (hk : s.arrivalOf number = some k)
include hl hk

/-- R76: the arrival's bytes match. -/
theorem checkResultIngest_of_match (hc : bodyCheck (s.buf.stagingMem.chunkBytes pages 0 length) = check) :
    checkResultIngest l s = (s.laneIdle l, [.checked name, .freeArrival k]) := by
  have hk' : (s.laneIdle l).arrivalOf number = some k := hk
  unfold checkResultIngest
  simp only [State.inDeep_of_not_deep hd, Bool.false_eq_true, if_false, hl, hk']
  exact if_pos hc

/-- R76: the arrival's bytes do not match. -/
theorem checkResultIngest_of_mismatch (hc : bodyCheck (s.buf.stagingMem.chunkBytes pages 0 length) ≠ check) :
    checkResultIngest l s = (s.laneIdle l, [.abandonArrival k .badBody]) := by
  have hk' : (s.laneIdle l).arrivalOf number = some k := hk
  unfold checkResultIngest
  simp only [State.inDeep_of_not_deep hd, Bool.false_eq_true, if_false, hl, hk']
  exact if_neg hc

end

section
variable {id : Nat} {name : Name} {length : Nat} {pages : List Nat} {check : Nat} {c : Copy}
  (hl : s.ingest.lanes[l] = some (.verify id name length pages check)) (hid : s.copy? id = some c)
  (hs : c.stage = .checking)
include hl hid hs

/-- R85: the copy's bytes match. -/
theorem checkResultVerify_of_match (hc : bodyCheck (s.buf.cacheMem.chunkBytes pages 0 length) = check) :
    checkResultVerify l s = (s.laneIdle l, [.verified id]) := by
  have hid' : (s.laneIdle l).copy? id = some c := hid
  unfold State.laneIdle at hid'
  unfold checkResultVerify
  simp only [State.inDeep_of_not_deep hd, Bool.false_eq_true, if_false, hl, hid', hs, hc, decide_true, Bool.true_or, if_true]
  rfl

/-- R85: the copy's bytes do not match. -/
theorem checkResultVerify_of_mismatch (hc : bodyCheck (s.buf.cacheMem.chunkBytes pages 0 length) ≠ check)
    (hn : c.drop = false) :
    checkResultVerify l s = ((s.laneIdle l).updCopy id fun c => { c with stage := .repairing }, [.repair id]) := by
  have hid' : (s.laneIdle l).copy? id = some c := hid
  unfold State.laneIdle at hid'
  unfold checkResultVerify
  simp only [State.inDeep_of_not_deep hd, Bool.false_eq_true, if_false, hl, hid', hs, hc, hn, decide_false, Bool.or_self]
  rfl

end

end

/-! ## The statements -/

/-- Settles O32: by whether the arrival's 10 s have passed. -/
theorem arrivalsTimeOut : Obligations.ArrivalsTimeOut := by
  intro s t k a h ha
  have hexec : exec (.arrivalTimeout t k) s = .next (State.finish (arrivalTimeout k (s.atTime t))) := event_of_settled h _
  refine ⟨fun hc hd => hexec.trans ?_, fun hn => next_of_noTasks hexec ?_⟩
  · rw [arrivalTimeout_of_due (s := s.atTime t) ha hc (h.atTime_now.symm ▸ hd)]
  · exact arrivalTimeout_of_not_due (s := s.atTime t) ha (h.atTime_now.symm ▸ hn)

/-- Settles O26: by the grounds of BUSY, and by the circle of ids, one lap of which comes to an id not in use. -/
theorem runOpenMakesARun : Obligations.RunOpenMakesARun := by
  intro s t m h hb hk u owner busy id r v
  have hexec : exec (.runOpen t) s = .next (State.finish (runOpen m u)) := message_dispatched h hb (isKind_of_kind hk)
  have hbusy : busy ↔ u.runBusy owner := by
    unfold State.runBusy
    rw [State.runIdsSpent_iff]
    exact Iff.rfl
  refine ⟨fun hy => next_of_noTasks hexec (runOpen_of_busy (hbusy.mp hy)),
    fun hn => next_of_noTasks hexec (runOpen_of_room fun hy => hn (hbusy.mpr hy)),
    State.takeRunId_of_unused, fun hn hlo hhi => State.takeRunId_new ⟨hlo, hhi⟩ fun hspent => ?_⟩
  exact hn (.inr (.inr (State.runIdsSpent_iff.mp hspent)))

/-- Settles O27: by the run that the RUN-ABORT names, and by whether the run's 300 s have passed. -/
theorem runsEndByAbortOrTimeout : Obligations.RunsEndByAbortOrTimeout := by
  intro s t h
  refine ⟨fun m hb hk => ?abort, fun id r hr => ?timeout⟩
  case abort =>
    intro u id
    have hexec : exec (.runAbort t) s = .next (State.finish (runAbort m u)) := message_dispatched h hb (isKind_of_kind hk)
    exact ⟨fun hr => next_of_noTasks hexec (runAbort_of_noRun hr), fun r hr =>
      ⟨fun ho => next_of_noTasks hexec (runAbort_of_notOwner hr ho),
       fun ho => hexec.trans (by rw [runAbort_of_owner hr ho])⟩⟩
  case timeout =>
    have hexec : exec (.runIdleTimeout t id) s = .next (State.finish (runIdleTimeout id (s.atTime t))) :=
      event_of_settled h _
    refine ⟨fun hc hd => hexec.trans ?_, fun hn => next_of_noTasks hexec ?_⟩
    · rw [runIdleTimeout_of_due (s := s.atTime t) hr hc (h.atTime_now.symm ▸ hd)]
    · exact runIdleTimeout_of_not_due (s := s.atTime t) hr (h.atTime_now.symm ▸ hn)

/-- Settles O28: by the run that the RUN-CLOSE names, or the sender's last closed one. -/
theorem runCloseDefersItsReply : Obligations.RunCloseDefersItsReply := by
  intro s t m h hb hk u id
  have hexec : exec (.runClose t) s = .next (State.finish (runClose m u)) := message_dispatched h hb (isKind_of_kind hk)
  exact ⟨fun hr hl => next_of_noTasks hexec (runClose_of_last hr hl),
    fun hr hl => next_of_noTasks hexec (runClose_of_noRun hr hl), fun r hr =>
    ⟨fun ho => next_of_noTasks hexec (runClose_of_notOwner hr ho),
     fun ho hc => next_of_noTasks hexec (runClose_of_closing hr ho hc),
     fun ho hc => hexec.trans (by rw [runClose_of_open hr ho hc])⟩⟩

/-- Settles O29: by the run that the OFFER names, then by its items in turn. -/
theorem offersAreJudgedAsAWhole : Obligations.OffersAreJudgedAsAWhole := by
  intro s t m h hb hk u id
  have hexec : exec (.offer t) s = .next (State.finish (offer m u)) := message_dispatched h hb (isKind_of_kind hk)
  refine ⟨fun hr => next_of_noTasks hexec (offer_of_noRun hr), fun r hr =>
    ⟨fun ho => next_of_noTasks hexec (offer_of_notOwner hr ho),
     fun ho hc => next_of_noTasks hexec (offer_of_closing hr ho hc), fun ho hc => ?judged⟩⟩
  case judged =>
    intro a
    have hcount : (offerItems m.body).length = byteAt m.body 2 := by simp [offerItems]
    rw [offer_of_open hr ho hc] at hexec
    refine ⟨(State.offerAll_length ..).trans (by rw [hcount]), hcount ▸ hexec, fun i k hi hv hfree => ?one⟩
    case one =>
      obtain ⟨hbelow, hnone⟩ := State.of_freeArrivalNo hfree
      refine ⟨hbelow, hnone, hexec.trans ?_⟩
      simp only [hi, State.offerAll_of_send _ [] hv hfree, State.offerAll_nil, List.append_nil]
      rfl

/-- Settles O30: the verdicts by the cases of R68 in their order; the effects by what every item given SEND takes, and by its
entry. -/
theorem offerVerdictsFollowTheEntry : Obligations.OfferVerdictsFollowTheEntry := by
  refine ⟨fun s owner i => ⟨State.verdict_of_badLength owner, fun hlo hhi => ?verdict⟩, fun s run owner i k p hp => ?effects⟩
  case verdict =>
    have hl := OfferItem.length_good hlo hhi
    exact ⟨State.verdict_of_broken owner hl, fun hb =>
      ⟨fun e he => ⟨State.verdict_of_held owner hl hb he, State.verdict_of_coming owner hl hb he,
        State.verdict_of_lostOther owner hl hb he, State.verdict_of_lostSame owner hl hb he⟩,
       fun he => ⟨State.verdict_of_fullIndex owner hl hb he, fun hx p hp =>
        ⟨State.verdict_of_quotaSpent owner hl hb he hx hp, State.verdict_of_newEntry owner hl hb he hx hp⟩⟩⟩⟩
  case effects =>
    intro pages w a
    have hw : w = s.sendItemOn pages run owner i k := State.sendItem_eq rfl run owner k
    have ha : newArrival i run owner p.tag s.now = a := newArrival_eq ..
    have hsent := s.sendItemOn_sent pages run i k hp
    rw [ha, ← hw] at hsent
    obtain ⟨hpool, harrival, hnumber, hothers, hruns, htables, hslots, hbays, hjournal, hpower⟩ := hsent
    refine ⟨hpool, harrival, hnumber, hothers, hruns, fun he => ?new, fun e he => ?lost, htables, hslots, hbays, hjournal,
      hpower⟩
    case new => exact hw ▸ State.sendItemOn_new s pages run owner i k he
    case lost =>
      have hname : e.name = i.name := of_decide_eq_true (List.find?_some he :)
      have hlost := State.sendItemOn_lost s pages run owner i k he
      rw [← hw, State.arriveAgain, hname] at hlost
      exact hlost

/-- Settles O33: by DEEP, then by what waits for the check queue, and by the body check of the lane's item. -/
theorem checkLanesReportTheBodyCheck : Obligations.CheckLanesReportTheBodyCheck := by
  have htake : ∀ {s : State} {t : Nat} (l : Fin 2) (v : Bool), s.Settled t →
      exec (.checkLaneTake t l v) s = .next ((s.atTime t).laneTake l v) :=
    fun l v h => event_plain h (State.laneTake · l v)
  have hingest : ∀ {s : State} {t : Nat} (l : Fin 2), s.Settled t →
      exec (.checkResultIngest t l) s = .next (State.finish (checkResultIngest l (s.atTime t))) :=
    fun l h => event_of_settled h _
  have hverify : ∀ {s : State} {t : Nat} (l : Fin 2), s.Settled t →
      exec (.checkResultVerify t l) s = .next (State.finish (checkResultVerify l (s.atTime t))) :=
    fun l h => event_of_settled h _
  refine ⟨fun s t l v h hd => ⟨?takeDeep, ?ingestDeep, ?verifyDeep⟩, fun s t l h hd => ⟨?take, ?ingest, ?verify⟩⟩
  case takeDeep => rw [htake l v h, State.laneTake_of_deep (s := s.atTime t) v l hd]
  case ingestDeep => exact next_of_noTasks (hingest l h) (checkResultIngest_of_deep (s := s.atTime t) hd)
  case verifyDeep => exact next_of_noTasks (hverify l h) (checkResultVerify_of_deep (s := s.atTime t) hd)
  case take =>
    intro i is v hl hq
    refine ⟨_, htake l v h, ?_⟩
    rw [State.laneTake_of_idle (s := s.atTime t) v hd hl hq, State.issue_ingest, State.issue_buf_verifyWait,
      State.refillCheck_lanes]
    refine ⟨by simp [State.giveLane], fun hi hv => ?_, fun j js hi hv => ?_, fun j js hi hv => ?_⟩
    · rw [State.refillCheck_of_none (s := (s.atTime t).giveLane l i is) v hi hv]
      rfl
    · rw [State.refillCheck_of_ingest (s := (s.atTime t).giveLane l i is) v hi hv]
      exact ⟨rfl, rfl⟩
    · rw [State.refillCheck_of_verify (s := (s.atTime t).giveLane l i is) v hi hv]
      exact ⟨rfl, rfl⟩
  case ingest =>
    intro number name length pages check k hl hk u
    exact ⟨fun hc => (hingest l h).trans (by rw [checkResultIngest_of_match (s := s.atTime t) hd hl hk hc]; rfl),
      fun hc => (hingest l h).trans (by rw [checkResultIngest_of_mismatch (s := s.atTime t) hd hl hk hc]; rfl)⟩
  case verify =>
    intro id name length pages check c hl hid hs u
    exact ⟨fun hc => (hverify l h).trans (by rw [checkResultVerify_of_match (s := s.atTime t) hd hl hid hs hc]; rfl),
      fun hc hn => (hverify l h).trans
        (by rw [checkResultVerify_of_mismatch (s := s.atTime t) hd hl hid hs hc hn]; rfl)⟩

end Sys2Proof.Machine
end

section
/-! SUPPORT and PROOFS. The DRAM port (section 5.5): what a grant, an issue and the end of a turn make of the port in each case,
said once, and the statement about its turns. -/

namespace Sys2Proof.Machine

/-! ## Grants -/

@[simp] theorem State.grantTurn_buf_port_waiting (s : State) : s.grantTurn.buf.port.waiting = s.buf.port.waiting := by
  unfold State.grantTurn; split <;> rfl

@[simp] theorem State.grantTurn_buf_port_last (s : State) : s.grantTurn.buf.port.last = s.buf.port.last := by
  unfold State.grantTurn; split <;> rfl

/-- R90, R175: none is granted while a turn runs, nor in DEEP. -/
theorem State.grantTurn_of_held {s : State} (h : s.buf.port.turn.isSome ∨ s.power.state = .deep) : s.grantTurn = s :=
  if_pos (by simpa using h)

/-- R90: outside DEEP an idle port serves the next requester in turn. -/
theorem State.grantTurn_of_idle {s : State} (ht : s.buf.port.turn = none) (hd : s.power.state ≠ .deep) :
    s.grantTurn = { s with buf.port.turn := s.buf.port.next? } :=
  if_neg (by simp [ht, hd])

/-! ## Transfers issued -/

/-- The state with a transfer waiting that no grant has seen (R90). -/
def State.addTransfer (s : State) (r : Requester) (n : Nat) : State :=
  { s with buf.port.waiting := s.buf.port.waiting ++ [(r, n)] }

theorem State.issue_of_pos (s : State) (r : Requester) {n : Nat} (h : 0 < n) :
    s.issue r n = (s.addTransfer r n).grantTurn :=
  if_neg h.ne'

/-! ## Turns that end -/

/-- The port when a turn has moved its bytes, before the next grant: only in DEEP does an unfinished transfer keep the port
(R90, R175). -/
def State.portAfterTurn (s : State) : Port :=
  match s.buf.port.turn with
  | none => s.buf.port
  | some r => {
      waiting := moveTurn r s.buf.port.waiting
      turn := if s.power.state = .deep ∧ s.buf.port.unfinished r = true then some r else none
      last := r }

/-- The state when a turn has moved its bytes, before the next grant (R90). -/
def State.afterTurn (s : State) : State := { s with buf.port := s.portAfterTurn }

theorem State.dramTurn_eq (s : State) : s.dramTurn = s.afterTurn.grantTurn := by
  cases h : s.buf.port.turn with
  | none =>
    simp only [State.dramTurn, State.afterTurn, State.portAfterTurn, h]
  | some r =>
    simp only [State.dramTurn, State.afterTurn, State.portAfterTurn, h, Bool.and_eq_true, decide_eq_true_eq]

section
variable {s : State}

theorem State.portAfterTurn_of_idle (h : s.buf.port.turn = none) : s.portAfterTurn = s.buf.port := by
  simp only [State.portAfterTurn, h]

section
variable {r : Requester} (h : s.buf.port.turn = some r)
include h

theorem State.portAfterTurn_waiting_of_served : s.portAfterTurn.waiting = moveTurn r s.buf.port.waiting := by
  simp only [State.portAfterTurn, h]

theorem State.portAfterTurn_last_of_served : s.portAfterTurn.last = r := by
  simp only [State.portAfterTurn, h]

/-- R175: in DEEP an unfinished transfer keeps the port. -/
theorem State.portAfterTurn_turn_of_deep (hd : s.power.state = .deep) :
    s.portAfterTurn.turn = if s.buf.port.unfinished r then some r else none := by
  simp only [State.portAfterTurn, h, hd, true_and]

end

/-- R90: outside DEEP every turn's end leaves the port idle. -/
theorem State.portAfterTurn_turn_of_not_deep (hd : s.power.state ≠ .deep) : s.portAfterTurn.turn = none := by
  cases h : s.buf.port.turn with
  | none => rw [State.portAfterTurn_of_idle h, h]
  | some r => simp only [State.portAfterTurn, h, hd, false_and, if_false]

/-- R175: in DEEP a turn's end grants no other. -/
theorem State.dramTurn_turn_of_deep (hd : s.power.state = .deep) :
    s.dramTurn.buf.port.turn = s.portAfterTurn.turn := by
  have hheld : s.afterTurn.buf.port.turn.isSome ∨ s.afterTurn.power.state = .deep := .inr hd
  rw [State.dramTurn_eq, State.grantTurn_of_held hheld, State.afterTurn]

/-- R90: outside DEEP a turn's end leaves the port to the next requester in order after the one served. -/
theorem State.dramTurn_turn_of_not_deep (hd : s.power.state ≠ .deep) :
    s.dramTurn.buf.port.turn = s.dramTurn.buf.port.next? := by
  have hidle : s.afterTurn.buf.port.turn = none := State.portAfterTurn_turn_of_not_deep hd
  rw [State.dramTurn_eq, State.grantTurn_of_idle hidle hd]
  rfl

end

theorem State.dramTurn_waiting (s : State) : s.dramTurn.buf.port.waiting = s.portAfterTurn.waiting := by
  rw [State.dramTurn_eq, State.grantTurn_buf_port_waiting, State.afterTurn]

theorem State.dramTurn_last (s : State) : s.dramTurn.buf.port.last = s.portAfterTurn.last := by
  rw [State.dramTurn_eq, State.grantTurn_buf_port_last, State.afterTurn]

/-- The end of a turn changes the DRAM port and nothing else (R90). -/
theorem State.dramTurn_port (s : State) : ∃ p, s.dramTurn = { s with buf.port := p } := by
  obtain ⟨p, hp⟩ := s.afterTurn.grantTurn_port
  exact ⟨p, s.dramTurn_eq.trans hp⟩

/-! ## The statement -/

/-- Settles O54: an issue by whether the port may grant; a turn's end by whether a turn was running, and by DEEP. -/
theorem dramTurnsGoRound : Obligations.DramTurnsGoRound := by
  refine ⟨fun s r n hn => ?issue, fun s t h => ?turnEnd⟩
  case issue =>
    rw [State.issue_of_pos s r hn]
    by_cases hheld : s.buf.port.turn.isSome ∨ s.power.state = .deep
    case pos =>
      rw [if_pos hheld, State.grantTurn_of_held (s := s.addTransfer r n) hheld]
      rfl
    case neg =>
      obtain ⟨hidle, hdeep⟩ := not_or.mp hheld
      rw [if_neg hheld,
        State.grantTurn_of_idle (s := s.addTransfer r n) (Option.not_isSome_iff_eq_none.mp hidle) hdeep]
      rfl
  case turnEnd =>
    have hexec : exec (.dramTurnEnd t) s = .next (s.atTime t).dramTurn := event_plain h State.dramTurn
    obtain ⟨p, hframe⟩ := (s.atTime t).dramTurn_port
    refine ⟨_, hexec, (State.dramTurn_waiting _).trans ?waiting, (State.dramTurn_last _).trans ?last,
      fun hd => (State.dramTurn_turn_of_deep (s := s.atTime t) hd).trans ?deep,
      State.dramTurn_turn_of_not_deep (s := s.atTime t), by rw [hframe]; rfl, by rw [hframe]; rfl, by rw [hframe]; rfl,
      by rw [hframe]; rfl⟩
    case waiting =>
      cases hturn : s.buf.port.turn with
      | none => rw [State.portAfterTurn_of_idle (s := s.atTime t) hturn, State.atTime_buf]
      | some r => exact State.portAfterTurn_waiting_of_served (s := s.atTime t) hturn
    case last =>
      cases hturn : s.buf.port.turn with
      | none => rw [State.portAfterTurn_of_idle (s := s.atTime t) hturn, State.atTime_buf, Option.getD_none]
      | some r => exact State.portAfterTurn_last_of_served (s := s.atTime t) hturn
    case deep =>
      cases hturn : s.buf.port.turn with
      | none => rw [State.portAfterTurn_of_idle (s := s.atTime t) hturn, State.atTime_buf, hturn]
      | some r => exact State.portAfterTurn_turn_of_deep (s := s.atTime t) hturn hd

end Sys2Proof.Machine
end

section
/-! SUPPORT and PROOFS. Stripes, parity and repair (Chapters 5, 6 and 11): the timers of the journal block and the filling
stripe, several transfers issued together, what the XOR Engine takes, what the end of each of its jobs leaves, and the
statements about them. -/

namespace Sys2Proof.Machine

/-! ## The block timer and the close timer -/

section
variable {s : State}

/-- When the journal block that is open closes, if one is (R181). -/
def State.blockDue (s : State) : Option Nat := s.openBlock.map fun b => b.opened + Config.blockTime

/-- R181: the block timer is the timer of the open block. -/
theorem blockExpiry_eq (s : State) : blockExpiry s = if s.due s.blockDue then (s, [.closeBlock]) else s.idle := by
  unfold blockExpiry State.due State.blockDue
  rw [Option.any_map]

theorem blockExpiry_of_due (h : s.due s.blockDue = true) : blockExpiry s = (s, [.closeBlock]) :=
  (blockExpiry_eq s).trans (if_pos h)

theorem blockExpiry_of_not_due (h : ¬s.due s.blockDue = true) : blockExpiry s = s.idle :=
  (blockExpiry_eq s).trans (if_neg h)

theorem closeExpiry_of_due (h : s.due s.store.closeTimer = true) : closeExpiry s = (s, [.closeStripe]) := if_pos h

theorem closeExpiry_of_not_due (h : ¬s.due s.store.closeTimer = true) : closeExpiry s = s.idle := if_neg h

end

/-! ## Several transfers issued -/

theorem State.issueAll_cons (s : State) (r : Requester) (n : Nat) (ns : List Nat) :
    s.issueAll r (n :: ns) = (s.issue r n).issueAll r ns := rfl

/-- Transfers issued change the DRAM port and nothing else (R90). -/
theorem State.issueAll_port (s : State) (r : Requester) (ns : List Nat) :
    ∃ p, s.issueAll r ns = { s with buf.port := p } := by
  induction ns generalizing s with
  | nil => exact ⟨s.buf.port, rfl⟩
  | cons n ns ih =>
    obtain ⟨p, hp⟩ := s.issue_port r n
    obtain ⟨q, hq⟩ := ih (s.issue r n)
    exact ⟨q, by rw [State.issueAll_cons, hq, hp]⟩

@[simp] theorem State.issueAll_store (s : State) (r : Requester) (ns : List Nat) :
    (s.issueAll r ns).store = s.store := by
  obtain ⟨p, h⟩ := s.issueAll_port r ns
  rw [h]

/-- R90: a transfer joins those that wait; one of no byte is not issued (assumption log 8). -/
theorem State.issue_waiting (s : State) (r : Requester) (n : Nat) :
    (s.issue r n).buf.port.waiting = s.buf.port.waiting ++ ([n].filter (0 < ·)).map fun k => (r, k) := by
  obtain rfl | hn := n.eq_zero_or_pos
  · exact (List.append_nil _).symm
  · rw [State.issue_of_pos s r hn, State.grantTurn_buf_port_waiting, List.filter_singleton, decide_eq_true hn]
    rfl

/-- R90: the transfers join those that wait, in order. -/
theorem State.issueAll_waiting (s : State) (r : Requester) (ns : List Nat) :
    (s.issueAll r ns).buf.port.waiting = s.buf.port.waiting ++ (ns.filter (0 < ·)).map fun k => (r, k) := by
  induction ns generalizing s with
  | nil => exact (List.append_nil _).symm
  | cons n ns ih =>
    rw [State.issueAll_cons, ih, State.issue_waiting, List.append_assoc, ← List.map_append, ← List.filter_append]
    rfl

/-! ## The XOR Engine takes a job -/

/-- The engine has taken a parity job, which leaves these on the parity list (R100). -/
def State.startParity (s : State) (n : Nat) (ns : List Nat) : State :=
  { s with store.parityList := ns, store.xorBusy := some (.parity n), store.reconLast := false }

/-- The engine has taken a reconstruction job, which leaves these on the reconstruction list (R100). -/
def State.startRecon (s : State) (j : Nat) (js : List Nat) : State :=
  { s.updJob j (fun j => { j with stage := .computing }) with
    store.reconList := js, store.xorBusy := some (.recon j), store.reconLast := true }

section
variable {s : State}

/-- R168: the engines are stopped in DEEP. -/
theorem State.takeJob_of_deep (hd : s.power.state = .deep) : s.takeJob = s :=
  if_pos (by rw [State.inDeep_of_deep hd, Bool.true_or])

theorem State.takeJob_of_busy (hb : s.store.xorBusy.isSome = true) : s.takeJob = s :=
  if_pos (by rw [hb, Bool.or_true])

theorem State.takeParity_of_cons {n : Nat} {ns : List Nat} (hl : s.store.parityList = n :: ns) :
    s.takeParity = (s.startParity n ns).issueAll .xor (s.parityTransfers n) := by
  unfold State.takeParity
  simp only [hl]
  rfl

theorem State.takeRecon_of_cons {j : Nat} {js : List Nat} (hl : s.store.reconList = j :: js) :
    s.takeRecon = (s.startRecon j js).issueAll .xor (s.reconTransfers j) := by
  unfold State.takeRecon
  simp only [hl]
  rfl

section
variable (hd : s.power.state ≠ .deep) (hb : s.store.xorBusy = none)
include hd hb

/-- R100: outside DEEP an idle engine serves one of its lists. -/
theorem State.takeJob_of_idle :
    s.takeJob = if s.store.reconLast then (if s.store.parityList.isEmpty then s.takeRecon else s.takeParity)
      else if s.store.reconList.isEmpty then s.takeParity else s.takeRecon :=
  if_neg (by rw [hb, Option.isSome_none, Bool.or_false]; exact State.inDeep_of_not_deep hd)

/-- R100: the parity list's turn, or the only list with a job. -/
theorem State.takeJob_parity {n : Nat} {ns : List Nat} (hl : s.store.parityList = n :: ns)
    (hturn : s.store.reconLast = true ∨ s.store.reconList = []) :
    s.takeJob = (s.startParity n ns).issueAll .xor (s.parityTransfers n) := by
  rw [State.takeJob_of_idle hd hb, ← State.takeParity_of_cons hl]
  obtain hlast | hempty := hturn
  · rw [if_pos hlast, hl, List.isEmpty_cons, if_neg Bool.false_ne_true]
  · rw [hl, hempty, List.isEmpty_cons, List.isEmpty_nil, if_neg Bool.false_ne_true, if_pos rfl, ite_self]

/-- R100: the reconstruction list's turn, or the only list with a job. -/
theorem State.takeJob_recon {j : Nat} {js : List Nat} (hl : s.store.reconList = j :: js)
    (hturn : s.store.reconLast = false ∨ s.store.parityList = []) :
    s.takeJob = (s.startRecon j js).issueAll .xor (s.reconTransfers j) := by
  rw [State.takeJob_of_idle hd hb, ← State.takeRecon_of_cons hl]
  obtain hlast | hempty := hturn
  · rw [hlast, if_neg Bool.false_ne_true, hl, List.isEmpty_cons, if_neg Bool.false_ne_true]
  · rw [hl, hempty, List.isEmpty_cons, List.isEmpty_nil, if_neg Bool.false_ne_true, if_pos rfl, ite_self]

end

/-- R99: one read for each filled slot, and the write of the parity image. -/
theorem State.parityTransfers_of_stripe {n : Nat} {r : Stripe} (hr : s.stripe? n = some r) :
    s.parityTransfers n = r.filled.map Filled.length ++ [1048576] := by
  rw [State.parityTransfers, hr]
  rfl

/-- R108: one read for each source, and the write of the result. -/
theorem State.reconTransfers_of_job {id : Nat} {j : Job} (hj : s.job? id = some j) :
    s.reconTransfers id = j.sources.map (fun _ => j.length) ++ [j.length] := by
  unfold State.reconTransfers
  simp only [hj]

end

/-! ## The ends of jobs -/

/-- The XOR Engine has no job (R100). -/
def State.xorIdle (s : State) : State := { s with store.xorBusy := none }

/-- Where the result of a reconstruction job goes, once it stands in the job's place, by the job's kind (R108, R110, R112). -/
def State.landResult (s : State) (id : Nat) (j : Job) : Work :=
  match j.kind with
  | .read c =>
    (((s.fillCopy c (s.resultBytes j)).updCopy c fun c => { c with rebuilt := true }).dropJob id,
      j.placeTasks ++ [.busyDown j.stripe, .landed c])
  | .repair c => ((s.fillCopy c (s.resultBytes j)).updJob id fun j => { j with stage := .verifying }, [.landed c])
  | .rebuild =>
    (s.updJob id fun j => { j with stage := .rewriting },
      (s.bayOf j.target).toList.map fun b => .offer b .stripe (.writeSlot j.stripe (.rebuild id)))

section
variable {s : State}

section
variable {id : Nat} {j : Job}

/-- R108: the result is the copy that was read. -/
theorem State.landResult_of_read {c : Nat} (hk : j.kind = .read c) :
    s.landResult id j =
      (((s.fillCopy c (s.resultBytes j)).updCopy c fun c => { c with rebuilt := true }).dropJob id,
        j.placeTasks ++ [.busyDown j.stripe, .landed c]) := by
  simp only [State.landResult, hk]

/-- R110: the result is the copy repaired, which is then verified. -/
theorem State.landResult_of_repair {c : Nat} (hk : j.kind = .repair c) :
    s.landResult id j =
      ((s.fillCopy c (s.resultBytes j)).updJob id fun j => { j with stage := .verifying }, [.landed c]) := by
  simp only [State.landResult, hk]

/-- R112: the result is offered to the bay of the member rebuilt. -/
theorem State.landResult_of_rebuild {b : BayNo} (hk : j.kind = .rebuild) (hbay : s.bayOf j.target = some b) :
    s.landResult id j =
      (s.updJob id fun j => { j with stage := .rewriting },
        [.offer b .stripe (.writeSlot j.stripe (.rebuild id))]) := by
  simp only [State.landResult, hk, hbay, Option.toList_some, List.map_cons, List.map_nil]

end

/-- R168: the engines are stopped in DEEP. -/
theorem parityJobEnd_of_deep (hd : s.power.state = .deep) : parityJobEnd s = s.idle :=
  if_pos (State.inDeep_of_deep hd)

/-- R168: the engines are stopped in DEEP. -/
theorem reconstructionJobEnd_of_deep (hd : s.power.state = .deep) : reconstructionJobEnd s = s.idle :=
  if_pos (State.inDeep_of_deep hd)

section
variable (hd : s.power.state ≠ .deep)
include hd

/-- R99: the parity image stands in its pages, and the stripe waits to be written out. -/
theorem parityJobEnd_of_parity {n : Nat} {r : Stripe} (hb : s.store.xorBusy = some (.parity n))
    (hr : s.stripe? n = some r) (hs : r.state = .filling) (hp : r.phase = .parity) :
    parityJobEnd s =
      ((s.xorIdle.formParity r).updStripe n fun r => { r with phase := .queueing }, [.judgeQueueing]) := by
  have hr' : s.xorIdle.stripe? n = some r := hr
  unfold State.xorIdle at hr'
  unfold parityJobEnd
  simp only [State.inDeep_of_not_deep hd, Bool.false_eq_true, if_false, hb, hr', hs, hp, decide_true, Bool.and_self,
    if_true]
  rfl

/-- R100: what the end of a reconstruction job does turns on the job's kind. -/
theorem reconstructionJobEnd_of_recon {id : Nat} {j : Job} {p : Nat} (hb : s.store.xorBusy = some (.recon id))
    (hj : s.job? id = some j) (hp : j.place = some p) :
    reconstructionJobEnd s = (s.xorIdle.formResult j p).landResult id j := by
  have hj' : s.xorIdle.job? id = some j := hj
  unfold State.xorIdle at hj'
  unfold reconstructionJobEnd
  simp only [State.inDeep_of_not_deep hd, Bool.false_eq_true, if_false, hb, hj', hp]
  rfl

end

end

/-! ## The statements -/

/-- Settles O53: by DEEP, then by the list whose turn it is for a job taken, and by the kind of the job that ends. -/
theorem theXorEngineServesItsListsInTurn : Obligations.TheXorEngineServesItsListsInTurn := by
  have htake : ∀ {s : State} {t : Nat}, s.Settled t → exec (.xorJobTake t) s = .next (s.atTime t).takeJob :=
    fun h => event_plain h State.takeJob
  have hparity : ∀ {s : State} {t : Nat}, s.Settled t →
      exec (.parityJobEnd t) s = .next (State.finish (parityJobEnd (s.atTime t))) := fun h => event_of_settled h _
  have hrecon : ∀ {s : State} {t : Nat}, s.Settled t →
      exec (.reconstructionJobEnd t) s = .next (State.finish (reconstructionJobEnd (s.atTime t))) :=
    fun h => event_of_settled h _
  refine ⟨fun s t h hd => ⟨?takeDeep, ?parityDeep, ?reconDeep⟩,
    fun s t h hd => ⟨fun hb => ?busy, ?takeParity, ?takeRecon, ?parityEnd, ?reconEnd⟩⟩
  case takeDeep => rw [htake h, State.takeJob_of_deep (s := s.atTime t) hd]
  case parityDeep => exact next_of_noTasks (hparity h) (parityJobEnd_of_deep (s := s.atTime t) hd)
  case reconDeep => exact next_of_noTasks (hrecon h) (reconstructionJobEnd_of_deep (s := s.atTime t) hd)
  case busy => rw [htake h, State.takeJob_of_busy (s := s.atTime t) hb]
  case takeParity =>
    intro n ns hb hl hturn
    refine ⟨_, htake h, ?_⟩
    rw [State.takeJob_parity (s := s.atTime t) hd hb hl hturn, State.issueAll_store]
    refine ⟨rfl, rfl, rfl, rfl, fun r hr => ?_⟩
    rw [State.issueAll_waiting, State.parityTransfers_of_stripe (s := s.atTime t) hr]
    rfl
  case takeRecon =>
    intro j js hb hl hturn
    refine ⟨_, htake h, ?_⟩
    rw [State.takeJob_recon (s := s.atTime t) hd hb hl hturn, State.issueAll_store]
    refine ⟨rfl, rfl, rfl, rfl, fun job hjob => ?_⟩
    rw [State.issueAll_waiting, State.reconTransfers_of_job (s := s.atTime t) hjob]
    rfl
  case parityEnd =>
    intro n r hb hr hs hp
    rw [hparity h, parityJobEnd_of_parity (s := s.atTime t) hd hb hr hs hp]
    rfl
  case reconEnd =>
    intro id j p hb hj hp v
    have hexec : exec (.reconstructionJobEnd t) s = .next (State.finish (v.landResult id j)) :=
      (hrecon h).trans (congrArg _ (congrArg _ (reconstructionJobEnd_of_recon (s := s.atTime t) hd hb hj hp)))
    refine ⟨fun c hk => ?read, fun c hk => ?repair, fun b hk hbay => ?rebuild⟩
    case read => rw [hexec, State.landResult_of_read hk]
    case repair => rw [hexec, State.landResult_of_repair hk]
    case rebuild =>
      have hbay' : v.bayOf j.target = some b := hbay
      rw [hexec, State.landResult_of_rebuild hk hbay']

/-- Settles O52: each timer by whether its time has come. -/
theorem blockAndStripeCloseOnTime : Obligations.BlockAndStripeCloseOnTime := by
  intro s t h
  have hblock : exec (.blockTimer t) s = .next (State.finish (blockExpiry (s.atTime t))) := event_of_settled h _
  have hclose : exec (.closeTimer t) s = .next (State.finish (closeExpiry (s.atTime t))) := event_of_settled h _
  have blockWaits : (s.blockDue = none ∨ ∃ e, s.blockDue = some e ∧ t < e) →
      exec (.blockTimer t) s = .next (s.atTime t) :=
    fun hb => next_of_noTasks hblock (blockExpiry_of_not_due (h.not_due hb))
  refine ⟨fun b hb => ?opened, fun hb => ?noBlock, fun e he => ⟨fun hle => ?stripeDue, fun hlt => ?stripeWaits⟩⟩
  case opened =>
    have hdue : s.blockDue = some (b.opened + 200) := congrArg (Option.map _) hb
    refine ⟨fun hle => ?_, fun hlt => blockWaits (.inr ⟨_, hdue, hlt⟩)⟩
    rw [hblock, blockExpiry_of_due (h.due_of_le hdue hle)]
  case noBlock => exact blockWaits (.inl (congrArg (Option.map _) hb))
  case stripeDue => rw [hclose, closeExpiry_of_due (h.due_of_le he hle)]
  case stripeWaits => exact next_of_noTasks hclose (closeExpiry_of_not_due (h.not_due (.inr ⟨e, he, hlt⟩)))

end Sys2Proof.Machine
end

section
/-! SUPPORT and PROOFS. The disks (Chapter 7): what a change of one bay leaves, and what each report, timer, insertion and removal
makes of each case it can meet; the store condition; start-up's probes, formation and the ABSENT store; and the statements about
them. -/

namespace Sys2Proof.Machine

/-! ## One bay's record -/

section
variable (s : State) (b : BayNo)

theorem State.bays_updBay_same (f : Bay → Bay) : (s.updBay b f).bays[b] = f s.bays[b] :=
  Vector.getElem_set_self b.isLt

theorem State.bays_updBay_other (f : Bay → Bay) {c : BayNo} (hc : c ≠ b) : (s.updBay b f).bays[c] = s.bays[c] :=
  Vector.getElem_set_ne b.isLt c.isLt fun he => hc (Fin.ext he.symm)

/-- Two changes of one bay are one. -/
theorem State.updBay_updBay (f g : Bay → Bay) : (s.updBay b f).updBay b g = s.updBay b fun x => g (f x) := by
  have hbay : (s.updBay b f).bays[b] = f s.bays[b] := s.bays_updBay_same b f
  rw [State.updBay, hbay]
  simp [State.updBay]

/-- The port has put a command in flight (R118). -/
theorem State.bays_launch_same (c : DiskCmd) :
    (s.launch b c).bays[b] = { s.bays[b] with flight := some { cmd := c, attempt := 1, issued := s.now } } := by
  simp only [State.launch, State.issue_bays]
  exact s.bays_updBay_same b _

end

/-! ## The form of an event -/

section
variable {s : State} {t : Nat} {f : State → Work}

/-- An event is known once its own work is. -/
theorem event_finish (h : s.Settled t) {w : Work} (hf : f (s.atTime t) = w) : s.event t f = .next (State.finish w) :=
  hf ▸ event_of_settled h f

/-- An event whose own work leaves no task. -/
theorem event_done (h : s.Settled t) {v : State} (hf : f (s.atTime t) = (v, [])) : s.event t f = .next v :=
  next_of_noTasks (event_of_settled h f) hf

end

/-! ## Spin-up -/

section
variable {s : State} {b : BayNo}

section
variable (hd : s.power.state = .deep)
include hd

/-- R124. -/
theorem spinUpReady_of_deep : spinUpReady b s = s.idle := if_pos (by simp [State.inDeep_of_deep hd])

/-- R124: no timer runs. -/
theorem spinUpTimeout_of_deep : spinUpTimeout b s = s.idle := by
  unfold spinUpTimeout
  cases ha : s.bays[b].spin with
  | none => simp only [ha]
  | some a =>
    simp only [ha]
    exact if_pos (by simp [State.inDeep_of_deep hd])

/-- R124: no timer runs. -/
theorem powerCycleOn_of_deep : powerCycleOn b s = s.idle := by
  unfold powerCycleOn
  cases ho : s.bays[b].offSince with
  | none => simp only [ho]
  | some off =>
    simp only [ho]
    exact if_pos (by simp [State.inDeep_of_deep hd])

end

/-- R122: 30 s have not passed. -/
theorem spinUpTimeout_of_early {a : SpinUp} (ha : s.bays[b].spin = some a) (hlt : s.now < a.start + 30000) :
    spinUpTimeout b s = s.idle := by
  unfold spinUpTimeout
  simp only [ha]
  exact if_pos (by simp [Config.spinUpTime, hlt])

/-- R122: the power has not been off for 1 s. -/
theorem powerCycleOn_of_early {off : Nat} (ho : s.bays[b].offSince = some off) (hlt : s.now < off + 1000) :
    powerCycleOn b s = s.idle := by
  unfold powerCycleOn
  simp only [ho]
  exact if_pos (by simp [Config.powerOffTime, hlt])

section
variable (hd : s.power.state ≠ .deep) {a : SpinUp} (ha : s.bays[b].spin = some a)
include hd ha

/-- R122: the member is ACTIVE. -/
theorem spinUpReady_of_member (ho : s.bays[b].offSince = none) (hm : s.bays[b].state = .member) :
    spinUpReady b s =
      (s.updBay b fun x => { x with substate := some .active, spin := none }, [.substateReport, .pump b]) := by
  have hruns : ¬(s.inDeep || s.bays[b].spin.isNone || s.bays[b].offSince.isSome) = true := by
    rw [ha, ho]
    simp [State.inDeep_of_not_deep hd]
  exact (if_neg hruns).trans (if_pos hm)

/-- R122: what 30 s without a ready report do, by the attempt. -/
theorem spinUpTimeout_of_due (ho : s.bays[b].offSince = none) (hle : a.start + 30000 ≤ s.now) :
    spinUpTimeout b s =
      if a.attempt = 1 then (s.updBay b fun x => { x with power := false, offSince := some s.now }, [])
      else (s, if s.bays[b].state = .member then [.declareFailed b false] else [.probeFailed b]) := by
  unfold spinUpTimeout
  have hruns : ¬(s.inDeep || s.bays[b].offSince.isSome || decide (s.now < a.start + Config.spinUpTime)) = true := by
    rw [ho]
    simp [State.inDeep_of_not_deep hd, Config.spinUpTime, Nat.not_lt.mpr hle]
  simp only [ha]
  rw [if_neg hruns, apply_ite (Prod.mk s)]

/-- R122: the power is on again, and attempt 2 begins. -/
theorem powerCycleOn_of_due {off : Nat} (ho : s.bays[b].offSince = some off) (hle : off + 1000 ≤ s.now) :
    powerCycleOn b s =
      (s.updBay b fun x =>
        { x with power := true, offSince := none, spin := some { attempt := 2, start := s.now } }, []) := by
  unfold powerCycleOn
  have hruns : ¬(s.inDeep || decide (s.now < off + Config.powerOffTime)) = true := by
    simp [State.inDeep_of_not_deep hd, Config.powerOffTime, Nat.not_lt.mpr hle]
  simp only [ho, ha]
  rw [if_neg hruns, State.updBay_updBay]
  rfl

end

end

/-! ## Attempts that fail -/

section
variable {s : State} {b : BayNo}

/-- R124: the port issues nothing. -/
theorem attemptFailed_of_deep (hd : s.power.state = .deep) : attemptFailed b s = s.idle := by
  unfold attemptFailed
  cases s.bays[b].flight with
  | none => rfl
  | some f => exact if_pos (State.inDeep_of_deep hd)

/-- R120: a report for an attempt that has failed already. -/
theorem errorReport_of_late {attempt : Nat} (hr : s.reported? b attempt = none) : errorReport b attempt s = s.idle :=
  if_neg (by simp [hr])

section
variable {f : InFlight} (hf : s.bays[b].flight = some f)
include hf

/-- R120: an error for the attempt that runs. -/
theorem errorReport_of_flight : errorReport b f.attempt s = attemptFailed b s :=
  if_pos (by rw [State.reported?_of_flight hf, Option.isSome_some])

/-- R120: a timeout is an attempt that failed. -/
theorem commandTimeout_of_due (hle : f.issued + 10000 ≤ s.now) : commandTimeout b s = attemptFailed b s :=
  if_pos (by
    rw [hf]
    exact decide_eq_true hle)

/-- R120: 10 s have not passed. -/
theorem commandTimeout_of_early (hlt : s.now < f.issued + 10000) : commandTimeout b s = s.idle :=
  if_neg (by
    rw [hf]
    exact Bool.eq_false_iff.mp (decide_eq_false (Nat.not_le.mpr hlt)))

variable (hd : s.power.state ≠ .deep)
include hd

/-- R120: after attempt 1 the command is issued again. -/
theorem attemptFailed_of_first (h1 : f.attempt = 1) :
    attemptFailed b s =
      ((s.updBay b fun x => { x with flight := some { f with attempt := 2, issued := s.now } }).issue (diskRequester b)
        f.cmd.bytes, []) := by
  unfold attemptFailed
  simp only [hf]
  rw [if_neg (State.inDeep_of_not_deep hd), if_pos h1]

/-- R120: after attempt 2 the member is declared FAILED. -/
theorem attemptFailed_of_member (h1 : f.attempt ≠ 1) (hm : s.bays[b].state = .member) :
    attemptFailed b s = (s, [.declareFailed b false]) := by
  unfold attemptFailed
  simp only [hf]
  rw [if_neg (State.inDeep_of_not_deep hd), if_neg h1, if_pos hm]

/-- R116: after attempt 2 the probe ends. -/
theorem attemptFailed_of_probe (h1 : f.attempt ≠ 1) (hm : s.bays[b].state ≠ .member) :
    attemptFailed b s = (s, [.probeFailed b]) := by
  unfold attemptFailed
  simp only [hf]
  rw [if_neg (State.inDeep_of_not_deep hd), if_neg h1, if_neg hm]

end

end

/-- What an event does that finds the attempt in flight failed (R116, R120). -/
theorem event_of_attemptFailed {s : State} {t : Nat} {b : BayNo} {f : InFlight} {g : State → Work} (h : s.Settled t)
    (hf : s.bays[b].flight = some f) (hd : s.power.state ≠ .deep)
    (hg : g (s.atTime t) = attemptFailed b (s.atTime t)) :
    (f.attempt = 1 → s.event t g = .next
      (((s.atTime t).updBay b fun x => { x with flight := some { f with attempt := 2, issued := t } }).issue
        (diskRequester b) f.cmd.bytes)) ∧
    (f.attempt ≠ 1 → s.bays[b].state = .member →
      s.event t g = .next (State.finish (s.atTime t, [.declareFailed b false]))) ∧
    (f.attempt ≠ 1 → s.bays[b].state ≠ .member →
      s.event t g = .next (State.finish (s.atTime t, [.probeFailed b]))) := by
  refine ⟨fun h1 => event_done h (hg.trans ?_),
    fun h1 hm => event_finish h (hg.trans (attemptFailed_of_member (s := s.atTime t) hf hd h1 hm)),
    fun h1 hm => event_finish h (hg.trans (attemptFailed_of_probe (s := s.atTime t) hf hd h1 hm))⟩
  rw [attemptFailed_of_first (s := s.atTime t) hf hd h1, h.atTime_now]

/-! ## Members that fail -/

section
variable {s : State}

theorem State.rebuildTarget_eq_none (h : s.store.pointer = none ∨ s.rebuildingMember = none) :
    s.rebuildTarget = none := by
  unfold State.rebuildTarget
  obtain hp | hr := h
  · rw [hp]
    rfl
  · rw [hr, ite_self]

theorem State.rebuildTarget_eq_some {k : Nat} (hp : s.store.pointer ≠ none) (hr : s.rebuildingMember = some k) :
    s.rebuildTarget = some k :=
  (if_pos (Option.isSome_iff_ne_none.mpr hp)).trans hr

section
variable {m : Nat}

/-- R92: there is no such member, or it is FAILED already. -/
theorem memberFailed_of_gone (h : s.member? m = none ∨ s.condOf m = some .failed) : memberFailed m s = s.idle :=
  if_pos (by simpa [or_comm] using h)

section
variable {e : Member} (he : s.member? m = some e) (hc : e.cond ≠ .failed)
include he hc

/-- R92: what a member's failure does, by the member that a running rebuild writes. -/
theorem memberFailed_of_live :
    memberFailed m s =
      (s.rebuildTarget.elim (s.failMember m) (s.failMember m).failMember,
        (if s.rebuildTarget.isSome then [Task.haltRebuild] else []) ++ [.judgeCond, .labelRound, .memberLeft m] ++
          s.rebuildTarget.toList.map Task.memberLeft ++
          [.endWork, .judgeQueueing, .rebuildStep, .judgeRebuild, .judgeAwake]) := by
  have hlive : ¬(decide (s.condOf m = some .failed) || (s.member? m).isNone) = true := by
    simp [State.condOf, he, hc]
  unfold memberFailed
  rw [if_neg hlive]
  cases s.rebuildTarget <;> rfl

/-- R92: no rebuild runs. -/
theorem memberFailed_of_noRebuild (hr : s.rebuildTarget = none) :
    memberFailed m s =
      (s.failMember m, [.judgeCond, .labelRound, .memberLeft m, .endWork, .judgeQueueing, .rebuildStep, .judgeRebuild,
        .judgeAwake]) := by
  rw [memberFailed_of_live he hc, hr]
  rfl

/-- R113: the REBUILDING member fails with it. -/
theorem memberFailed_of_rebuild {k : Nat} (hr : s.rebuildTarget = some k) :
    memberFailed m s =
      ((s.failMember m).failMember k, [.haltRebuild, .judgeCond, .labelRound, .memberLeft m, .memberLeft k, .endWork,
        .judgeQueueing, .rebuildStep, .judgeRebuild, .judgeAwake]) := by
  rw [memberFailed_of_live he hc, hr]
  rfl

end

end

/-! ## The store condition -/

/-- The FAILED members. -/
def State.failedMembers (s : State) : List Nat := s.memberIds.filter fun m => s.condOf m = some .failed

/-- R93. -/
theorem State.tableCond_eq (s : State) :
    s.tableCond = if 2 ≤ s.failedMembers.length then .broken
      else if ∃ m ∈ s.memberIds, s.condOf m ≠ some .ok then .degraded else .whole := by
  simp only [State.tableCond, State.failedMembers, List.countP_eq_length_filter, List.any_eq_true, decide_eq_true_eq]
  congr

theorem State.tableCond_of_two_failed (h : 2 ≤ s.failedMembers.length) : s.tableCond = .broken := by
  rw [State.tableCond_eq, if_pos h]

theorem State.tableCond_of_not_ok (hf : s.failedMembers.length < 2) (h : ∃ m ∈ s.memberIds, s.condOf m ≠ some .ok) :
    s.tableCond = .degraded := by
  rw [State.tableCond_eq, if_neg (Nat.not_le.mpr hf), if_pos h]

theorem State.tableCond_of_ok (h : ∀ m ∈ s.memberIds, s.condOf m = some .ok) : s.tableCond = .whole := by
  have hnone : s.failedMembers = [] := List.filter_eq_nil_iff.mpr fun m hm => by simp [h m hm]
  have hall : ¬∃ m ∈ s.memberIds, s.condOf m ≠ some .ok := fun ⟨m, hm, hne⟩ => hne (h m hm)
  rw [State.tableCond_eq, hnone, if_neg (by decide), if_neg hall]

/-- R93: not before start-up ends, and BROKEN and ABSENT stay. -/
theorem judgeCond_of_kept
    (h : s.power.state = .starting ∨ s.store.cond = some .broken ∨ s.store.cond = some .absent) :
    judgeCond s = s.idle :=
  if_pos (by
    simp only [State.broken, State.absent, Bool.or_eq_true, decide_eq_true_eq]
    tauto)

/-- R93: the condition of the member table is the store's already. -/
theorem judgeCond_of_same (h : s.store.cond = some s.tableCond) : judgeCond s = s.idle :=
  if_pos (by rw [decide_eq_true h, Bool.or_true])

/-- R93: the store takes the condition of the member table. -/
theorem judgeCond_of_change (hs : s.power.state ≠ .starting) (hb : s.store.cond ≠ some .broken)
    (ha : s.store.cond ≠ some .absent) (h : s.store.cond ≠ some s.tableCond) :
    judgeCond s =
      ({ s with store.cond := some s.tableCond },
        if s.tableCond = .broken then [.haltRebuild, .storeBroken] else [.walk]) := by
  have hjudged : ¬(decide (s.power.state = .starting) || s.broken || s.absent ||
      decide (s.store.cond = some s.tableCond)) = true := by
    simp [State.broken, State.absent, hs, hb, ha, h]
  unfold judgeCond
  rw [if_neg hjudged]
  simp [State.broken]

end

/-! ## Probes -/

section
variable {s : State} {b : BayNo} {f : InFlight} (hf : s.bays[b].flight = some f)
include hf

/-- R116: the label is read after the capacity. -/
theorem capacityReadEnd_of_capacity (capacity : Nat) (hd : s.power.state ≠ .deep) (hc : f.cmd = .capacityRead)
    (hp : s.bays[b].probe = some .capacity) :
    capacityReadEnd b f.attempt capacity s =
      ((s.updBay b fun x => { x with capacity := some capacity, probe := some .label }).launch b .labelRead, []) := by
  refine if_pos ?_
  rw [State.reported?_of_flight hf, hc, hp]
  simp [State.inDeep_of_not_deep hd]

section
variable (data : List Byte) (hc : f.cmd = .labelRead)
include hc

/-- R116: outside STARTING and DEEP the disk whose label has been read is classified. -/
theorem labelDone_of_probe (hs : s.power.state ≠ .starting) (hd : s.power.state ≠ .deep) :
    labelDone b f.attempt data s =
      (s.updBay b fun x => { x with flight := none, label := some (readLabel (padTo 4096 data)) },
        [.classify b, .endWork, .commandEnded true]) := by
  unfold labelDone
  rw [State.reported?_of_flight hf, hc]
  show (if s.inDeep = true then _ else if s.power.state = .starting then _ else _) = _
  rw [if_neg (State.inDeep_of_not_deep hd), if_neg hs, State.landFlight, State.updBay_updBay]
  rfl

/-- R187: in STARTING a probe ends with its label read. -/
theorem labelDone_of_starting (hs : s.power.state = .starting) :
    labelDone b f.attempt data s =
      (s.updBay b fun x => { x with flight := none, label := some (readLabel (padTo 4096 data)), probe := none },
        [.judgeProbes, .endWork, .commandEnded true]) := by
  have hd : s.power.state ≠ .deep := by simp [hs]
  unfold labelDone
  rw [State.reported?_of_flight hf, hc]
  show (if s.inDeep = true then _ else if s.power.state = .starting then _ else _) = _
  rw [if_neg (State.inDeep_of_not_deep hd), if_pos hs, State.landFlight, State.updBay_updBay, State.updBay_updBay]
  rfl

end

end

/-- Start-up goes on once every probe has ended (R187). -/
theorem judgeProbes_of_ended {s : State} (hp : s.loader.phase = .probing) (h : ∀ b : BayNo, s.bays[b].probe = none) :
    judgeProbes s = (s, [.assignMembers]) := by
  have hall : (s.bays.toList.all fun x => x.probe.isNone) = true := by
    simp only [List.all_eq_true, Vector.mem_toList_iff]
    intro x hx
    obtain ⟨i, hi, rfl⟩ := Vector.mem_iff_getElem.mp hx
    exact Option.isNone_iff_eq_none.mpr (h ⟨i, hi⟩)
  exact if_pos (by simp [hp, hall])

/-! ## Disks that come and go -/

/-- The latch of a disk's coming in DEEP, by what has been latched before (R121). -/
def Bay.latchIn (x : Bay) (same : Bool) : Latch :=
  match x.latch with
  | none => { was := false, other := true }
  | some l => { l with other := !same }

section
variable {s : State} {b : BayNo}

section
variable (same : Bool) (hp : s.bays[b].present = false)
include hp

/-- R116: in STARTING a disk's coming is only seen. -/
theorem diskInserted_of_starting (hs : s.power.state = .starting) :
    diskInserted b same s = (s.updBay b fun x => { x with present := true }, []) := by
  have hd : s.power.state ≠ .deep := by simp [hs]
  unfold diskInserted
  rw [hp, if_neg Bool.false_ne_true]
  exact (if_neg hd).trans (if_pos hs)

/-- R116: outside STARTING and DEEP the disk is probed. -/
theorem diskInserted_of_running (hs : s.power.state ≠ .starting) (hd : s.power.state ≠ .deep) :
    diskInserted b same s = (s.updBay b fun x => { x with present := true }, [.startProbe b]) := by
  unfold diskInserted
  rw [hp, if_neg Bool.false_ne_true]
  exact (if_neg hd).trans (if_neg hs)

/-- R121: in DEEP the coming is latched. -/
theorem diskInserted_of_deep (hd : s.power.state = .deep) :
    diskInserted b same s =
      (s.updBay b fun x => { x with present := true, latch := some (x.latchIn same) }, []) := by
  unfold diskInserted
  rw [hp, if_neg Bool.false_ne_true]
  exact (if_pos hd).trans (by rw [State.updBay_updBay]; rfl)

end

/-- R121: a MEMBER is declared FAILED. -/
theorem removeDisk_of_member (hm : s.bays[b].state = .member) : removeDisk b s = (s, [.declareFailed b true]) := by
  unfold removeDisk
  simp only [hm]

/-- R121: the bay of another disk is emptied. -/
theorem removeDisk_of_other (hm : s.bays[b].state ≠ .member) :
    removeDisk b s = (s.updBay b Bay.emptied,
      if s.bays[b].state ≠ .empty then [.judgeRebuild]
      else if s.bays[b].probe ≠ none ∧ s.power.state = .starting then [.judgeProbes] else []) := by
  unfold removeDisk
  cases hb : s.bays[b].state with
  | member => exact absurd hb hm
  | empty =>
    simp only [hb]
    simp [Option.isSome_iff_ne_none]
  | blank | foreign | stale =>
    simp only [hb]
    rfl

section
variable (hp : s.bays[b].present = true)
include hp

/-- R121: in DEEP the going is latched. -/
theorem diskRemoved_of_deep (hd : s.power.state = .deep) :
    diskRemoved b s = (s.updBay b fun x =>
      { x with present := false, latch := some (x.latch.getD { was := true, other := false }) }, []) := by
  unfold diskRemoved
  rw [hp]
  exact (if_pos hd).trans (by rw [State.updBay_updBay])

section
variable (hd : s.power.state ≠ .deep)
include hd

/-- R121: outside DEEP what the going does turns on the bay's state. -/
theorem diskRemoved_of_not_deep :
    diskRemoved b s = removeDisk b (s.updBay b fun x => { x with present := false }) := by
  unfold diskRemoved
  rw [hp]
  exact if_neg hd

/-- R121: a MEMBER's disk has gone. -/
theorem diskRemoved_of_member (hm : s.bays[b].state = .member) :
    diskRemoved b s = (s.updBay b fun x => { x with present := false }, [.declareFailed b true]) := by
  rw [diskRemoved_of_not_deep hp hd, removeDisk_of_member]
  rwa [State.bays_updBay_same]

/-- R121: another disk has gone. -/
theorem diskRemoved_of_other (hm : s.bays[b].state ≠ .member) :
    diskRemoved b s = (s.updBay b Bay.emptied,
      if s.bays[b].state ≠ .empty then [.judgeRebuild]
      else if s.bays[b].probe ≠ none ∧ s.power.state = .starting then [.judgeProbes] else []) := by
  rw [diskRemoved_of_not_deep hp hd, removeDisk_of_other, State.updBay_updBay, State.bays_updBay_same]
  · rfl
  · rwa [State.bays_updBay_same]

end

end

end

/-- A probe that begins is all that is carried out (R116). -/
theorem finish_startProbe (s : State) (b : BayNo) :
    State.finish (s, [.startProbe b]) = s.updBay b fun x =>
      { x with power := true, offSince := none, probe := some .spin, spin := some { attempt := 1, start := s.now } } :=
  finish_one rfl

/-! ## The bays placed, and the store formed -/

/-- Work of the disk ports: nothing but bay records and the DRAM port has changed. -/
def State.PortsOnly (s u : State) : Prop := ∃ bays port, u = { s with bays := bays, buf.port := port }

theorem State.PortsOnly.refl (s : State) : s.PortsOnly s := ⟨s.bays, s.buf.port, rfl⟩

theorem State.PortsOnly.trans {s u v : State} (h : s.PortsOnly u) (k : u.PortsOnly v) : s.PortsOnly v := by
  obtain ⟨_, _, rfl⟩ := h
  obtain ⟨bays, port, rfl⟩ := k
  exact ⟨bays, port, rfl⟩

theorem State.updBay_portsOnly (s : State) (b : BayNo) (f : Bay → Bay) : s.PortsOnly (s.updBay b f) :=
  ⟨_, s.buf.port, rfl⟩

theorem State.issueAll_portsOnly (s : State) (r : Requester) (ns : List Nat) : s.PortsOnly (s.issueAll r ns) := by
  obtain ⟨port, h⟩ := s.issueAll_port r ns
  exact ⟨s.bays, port, h⟩

theorem State.launch_portsOnly (s : State) (b : BayNo) (c : DiskCmd) : s.PortsOnly (s.launch b c) :=
  (s.updBay_portsOnly b _).trans (State.issueAll_portsOnly _ _ [_])

theorem State.foldl_portsOnly {f : State → BayNo → State} (hf : ∀ (u : State) (b : BayNo), u.PortsOnly (f u b))
    (bs : List BayNo) (s : State) : s.PortsOnly (bs.foldl f s) := by
  induction bs generalizing s with
  | nil => exact .refl s
  | cons b bs ih => exact (hf s b).trans (ih (f s b))

theorem State.placeBay_portsOnly (s : State) (b : BayNo) : s.PortsOnly (s.placeBay b) := by
  unfold State.placeBay
  split
  · exact s.updBay_portsOnly b _
  · split
    · exact (s.updBay_portsOnly b _).trans (State.launch_portsOnly _ b _)
    · exact .refl s

section
variable {s u : State} (h : s.PortsOnly u)
include h

theorem State.PortsOnly.store : u.store = s.store := by
  obtain ⟨_, _, rfl⟩ := h
  rfl

theorem State.PortsOnly.journal : u.journal = s.journal := by
  obtain ⟨_, _, rfl⟩ := h
  rfl

theorem State.PortsOnly.labelGen : u.labelGen = s.labelGen := by
  obtain ⟨_, _, rfl⟩ := h
  rfl

theorem State.PortsOnly.loader : u.loader = s.loader := by
  obtain ⟨_, _, rfl⟩ := h
  rfl

end

/-- R187: no label is trusted. -/
theorem assignMembers_of_untrusted {s : State} (h : s.trusted = none) : assignMembers s = (s, [.formStore]) := by
  unfold assignMembers
  rw [h]

/-- R188: too few disks fit. -/
theorem formStore_of_few {s : State} (h : s.formBays.length < 2) : formStore s = (s, [.storeAbsent]) := if_pos h

/-- The tables of a store just formed of these bays, whose disks have not been given a command (R188). -/
def State.newStore (s : State) (bays : List BayNo) : State :=
  { s with
    store.members := bays.map fun b => { bay := some b, cond := .ok }
    store.stripeCount := s.newStripeCount bays
    journal := { Journal.reset with set := true, storeId := s.newStoreId, nextSeq := 1, ringStart := 1, lastCheckpoint := 1 }
    labelGen := some 1
    loader.phase := .forming }

/-- R188: beyond the new tables, forming a store changes the disk ports only. -/
theorem formStore_newStore {s : State} (h : 2 ≤ s.formBays.length) :
    (s.newStore s.formBays).PortsOnly (formStore s).1 := by
  unfold formStore
  rw [if_neg (Nat.not_lt.mpr h)]
  exact (State.foldl_portsOnly State.placeBay_portsOnly bayNos _).trans (State.issueAll_portsOnly _ _ _)

/-! ## The ABSENT store -/

theorem State.absentBay_portsOnly (s : State) (b : BayNo) : s.PortsOnly (s.absentBay b) := by
  unfold State.absentBay
  split
  · exact s.updBay_portsOnly b _
  · exact .refl s

section
variable {s : State} {b : BayNo}

/-- R192: what a bay shows once the store is ABSENT turns on its label, and on the loader. -/
theorem State.absentClass_congr {u : State} (hl : u.bays[b].label = s.bays[b].label) (hu : u.loader = s.loader) :
    u.absentClass b = s.absentClass b := by
  unfold State.absentClass State.ownLabel State.countsBlank State.clearing
  rw [hl, hu]

/-- A bay that has left the store and shows this (R192). -/
structure Bay.LeftAs (x : Bay) (c : BayState) : Prop where
  member : x.member = none
  substate : x.substate = none
  state : x.state = c

theorem State.absentBay_leftAs (hl : s.bays[b].label ≠ none) : (s.absentBay b).bays[b].LeftAs (s.absentClass b) := by
  unfold State.absentBay
  rw [if_pos (Option.isSome_iff_ne_none.mpr hl), State.bays_updBay_same]
  exact ⟨rfl, rfl, rfl⟩

theorem State.absentBay_other {c : BayNo} (hc : b ≠ c) : (s.absentBay c).bays[b] = s.bays[b] := by
  unfold State.absentBay
  split
  · exact s.bays_updBay_other c _ hc
  · rfl

theorem State.absentBay_label (c : BayNo) : (s.absentBay c).bays[b].label = s.bays[b].label := by
  by_cases hc : b = c
  · subst hc
    unfold State.absentBay
    split
    · rw [State.bays_updBay_same]
    · rfl
  · rw [State.absentBay_other hc]

/-- R192: a bay with a label read leaves the store when its turn comes, and no other bay's turn changes that. -/
theorem State.foldl_absentBay_leftAs (bs : List BayNo) (hl : s.bays[b].label ≠ none)
    (hb : b ∈ bs ∨ s.bays[b].LeftAs (s.absentClass b)) :
    (bs.foldl State.absentBay s).bays[b].LeftAs (s.absentClass b) := by
  induction bs generalizing s with
  | nil => exact hb.resolve_left List.not_mem_nil
  | cons c bs ih =>
    have hlabel : (s.absentBay c).bays[b].label = s.bays[b].label := State.absentBay_label c
    have hclass : (s.absentBay c).absentClass b = s.absentClass b :=
      State.absentClass_congr hlabel (s.absentBay_portsOnly c).loader
    rw [List.foldl_cons, ← hclass]
    refine ih (hlabel ▸ hl) ?_
    rw [hclass]
    by_cases hc : b = c
    · exact .inr (hc ▸ State.absentBay_leftAs (hc ▸ hl))
    · rw [State.absentBay_other hc]
      exact hb.imp_left fun hm => (List.mem_cons.mp hm).resolve_left hc

end

/-- R192: every disk with a label read leaves its member. -/
theorem storeAbsent_leftAs {s : State} {b : BayNo} (hp : s.loader.phase ≠ .ended) (hl : s.bays[b].label ≠ none) :
    (storeAbsent s).1.bays[b].LeftAs (s.absentClass b) := by
  unfold storeAbsent
  rw [if_neg hp]
  exact State.foldl_absentBay_leftAs bayNos hl (.inl (List.mem_finRange b))

/-- R192: an ABSENT store has no members, and no journal but its torn-tail flag (R190). -/
theorem storeAbsent_tables {s : State} (hp : s.loader.phase ≠ .ended) :
    (storeAbsent s).1.store = { Store.reset with cond := some .absent } ∧
      (storeAbsent s).1.journal = { Journal.reset with torn := s.journal.torn } ∧
      (storeAbsent s).1.loader.phase = .ended := by
  have hjournal : (bayNos.foldl State.absentBay s).journal = s.journal :=
    (State.foldl_portsOnly State.absentBay_portsOnly bayNos s).journal
  unfold storeAbsent
  rw [if_neg hp, ← hjournal]
  exact ⟨rfl, rfl, rfl⟩

/-! ## The statements -/

/-- Settles O57: by the report or the timer, by whether its time has come, and by the attempt. -/
theorem spinUpsAreTriedTwice : Obligations.SpinUpsAreTriedTwice := by
  refine ⟨fun s t b h hd => ⟨?readyDeep, ?timeoutDeep, ?powerDeep⟩, fun s t b a h hd ha =>
    ⟨fun ho hm => ?ready, fun ho hle h1 => ?first, fun ho hle h1 => ?second, fun hlt => ?early,
      fun off ho hle => ?powerOn, fun off ho hlt => ?powerWaits⟩⟩
  case readyDeep => exact event_done h (spinUpReady_of_deep (s := s.atTime t) hd)
  case timeoutDeep => exact event_done h (spinUpTimeout_of_deep (s := s.atTime t) hd)
  case powerDeep => exact event_done h (powerCycleOn_of_deep (s := s.atTime t) hd)
  case ready => exact event_finish h (spinUpReady_of_member (s := s.atTime t) hd ha ho hm)
  case first =>
    have hcut := spinUpTimeout_of_due (s := s.atTime t) hd ha ho (h.atTime_now.symm ▸ hle)
    rw [if_pos h1, h.atTime_now] at hcut
    exact event_done h hcut
  case second =>
    have hfail := spinUpTimeout_of_due (s := s.atTime t) hd ha ho (h.atTime_now.symm ▸ hle)
    rw [if_neg h1] at hfail
    exact event_finish h hfail
  case early => exact event_done h (spinUpTimeout_of_early (s := s.atTime t) ha (h.atTime_now.symm ▸ hlt))
  case powerOn =>
    have hon := powerCycleOn_of_due (s := s.atTime t) hd ha ho (h.atTime_now.symm ▸ hle)
    rw [h.atTime_now] at hon
    exact event_done h hon
  case powerWaits => exact event_done h (powerCycleOn_of_early (s := s.atTime t) ho (h.atTime_now.symm ▸ hlt))

/-- Settles O56: an attempt by its number and DEEP; a member by what it is and by the rebuild; the condition by R93's rows. -/
theorem failedAttemptsAreMadeTwice : Obligations.FailedAttemptsAreMadeTwice := by
  refine ⟨?attempts, ?members, ?condition⟩
  case attempts =>
    intro s t b f h hf failed
    refine ⟨fun hd => ?error, fun hd hle => ?due, fun hlt => ?early, fun a ha => ?late,
      fun hd => ⟨?timeoutDeep, ?errorDeep⟩⟩
    case error => exact event_of_attemptFailed h hf hd (errorReport_of_flight (s := s.atTime t) hf)
    case due =>
      exact event_of_attemptFailed h hf hd (commandTimeout_of_due (s := s.atTime t) hf (h.atTime_now.symm ▸ hle))
    case early => exact event_done h (commandTimeout_of_early (s := s.atTime t) hf (h.atTime_now.symm ▸ hlt))
    case late =>
      have hlate : ∀ g, (s.atTime t).bays[b].flight = some g → a ≠ g.attempt := fun g hg =>
        Option.some.inj (hf.symm.trans hg) ▸ ha
      exact event_done h (errorReport_of_late (State.reported?_of_late hlate))
    case timeoutDeep =>
      by_cases hle : f.issued + 10000 ≤ (s.atTime t).now
      · exact event_done h ((commandTimeout_of_due (s := s.atTime t) hf hle).trans (attemptFailed_of_deep hd))
      · exact event_done h (commandTimeout_of_early (s := s.atTime t) hf (Nat.not_le.mp hle))
    case errorDeep =>
      exact event_done h ((errorReport_of_flight (s := s.atTime t) hf).trans (attemptFailed_of_deep hd))
  case members =>
    intro s m told gone
    refine ⟨fun hm => memberFailed_of_gone hm, fun e he hc => ⟨fun hr => ?noRebuild, fun k hp hr => ?rebuild⟩⟩
    case noRebuild => exact memberFailed_of_noRebuild he hc (State.rebuildTarget_eq_none hr)
    case rebuild => exact memberFailed_of_rebuild he hc (State.rebuildTarget_eq_some hp hr)
  case condition =>
    intro s failed
    refine ⟨State.tableCond_of_ok, State.tableCond_of_two_failed, State.tableCond_of_not_ok, judgeCond_of_kept,
      fun hs hb ha => ?judged⟩
    case judged =>
      show (judgeCond s).1 = _ ∧ (_ → (judgeCond s).2 = _)
      by_cases hsame : s.store.cond = some s.tableCond
      · rw [judgeCond_of_same hsame]
        refine ⟨?_, fun hbroken => absurd (hbroken ▸ hsame) hb⟩
        rw [← hsame]
        rfl
      · rw [judgeCond_of_change hs hb ha hsame]
        exact ⟨rfl, fun hbroken => if_pos hbroken⟩

/-- Settles O58: the probe's stages, a disk's coming and going by the power state, and start-up's judgement of its probes. -/
theorem disksAreProbedAndLatched : Obligations.DisksAreProbedAndLatched := by
  refine ⟨fun s t b h => ⟨?capacity, ?label, ?labelStarting, fun same hp => ⟨?insertedStarting, ?inserted, ?insertedDeep⟩,
    fun hp => ⟨?removedDeep, ?removedMember, ?removedOther⟩⟩, fun s => ⟨judgeProbes_of_ended,
    fun ⟨b, hb⟩ => judgeProbes_of_probe hb, assignMembers_of_untrusted, formStore_of_few, ?formed, ?absent⟩⟩
  case capacity =>
    intro f capacity hd hf hc hp
    refine ⟨_, event_done h (capacityReadEnd_of_capacity (s := s.atTime t) hf capacity hd hc hp), ?_⟩
    rw [State.bays_launch_same, State.bays_updBay_same, State.updBay_now, h.atTime_now]
    exact ⟨rfl, rfl, rfl⟩
  case label =>
    intro f data hf hc hs hd
    exact event_finish h (labelDone_of_probe (s := s.atTime t) hf data hc hs hd)
  case labelStarting =>
    intro f data hf hc hs
    exact event_finish h (labelDone_of_starting (s := s.atTime t) hf data hc hs)
  case insertedStarting => exact fun hs => event_done h (diskInserted_of_starting (s := s.atTime t) same hp hs)
  case inserted =>
    intro hs hd
    refine ⟨_, event_finish h (diskInserted_of_running (s := s.atTime t) same hp hs hd), ?_⟩
    rw [finish_startProbe, State.updBay_updBay, State.bays_updBay_same, State.updBay_now, h.atTime_now]
    exact ⟨rfl, rfl, rfl, rfl, fun c hc => (s.atTime t).bays_updBay_other b _ hc⟩
  case insertedDeep =>
    intro hd
    refine ⟨_, s.bays[b].latchIn same, event_done h (diskInserted_of_deep (s := s.atTime t) same hp hd), ?_⟩
    rw [State.bays_updBay_same]
    exact ⟨rfl, rfl, rfl, rfl, rfl, fun c hc => (s.atTime t).bays_updBay_other b _ hc⟩
  case removedDeep =>
    intro hd
    refine ⟨_, event_done h (diskRemoved_of_deep (s := s.atTime t) hp hd), ?_⟩
    rw [State.bays_updBay_same]
    exact ⟨rfl, rfl, rfl⟩
  case removedMember => exact fun hd hm => event_finish h (diskRemoved_of_member (s := s.atTime t) hp hd hm)
  case removedOther => exact fun hd hm => event_finish h (diskRemoved_of_other (s := s.atTime t) hp hd hm)
  case formed =>
    intro hn u
    have hports : (s.newStore s.formBays).PortsOnly u := formStore_newStore hn
    rw [hports.store, hports.labelGen, hports.loader, hports.journal]
    exact ⟨rfl, rfl, rfl, rfl, rfl⟩
  case absent =>
    intro hp u
    obtain ⟨hstore, hjournal, hphase⟩ := storeAbsent_tables hp
    refine ⟨hstore, hjournal, hphase, fun b hl => ?_⟩
    obtain ⟨hmember, hsubstate, hstate⟩ := storeAbsent_leftAs hp hl
    exact ⟨hmember, hsubstate, hstate⟩

end Sys2Proof.Machine
end

section
/-! SUPPORT and PROOFS. Stream slots and pacing (Chapter 8): what a change of one slot leaves, what the rate actions and the rate
update make of a transfer and its pacer, a record that becomes current, the slot a PLAY takes, what each request makes of its slot,
the intervals and the timers of a slot, and the statements about them. -/

namespace Sys2Proof.Machine

/-! ## One slot's record -/

section
variable (s : State) (i : SlotNo)

theorem State.slots_updSlot_same (f : Slot → Slot) : (s.updSlot i f).slots[i] = f s.slots[i] :=
  Vector.getElem_set_self i.isLt

/-- A change of a slot is known by what it makes of the slot that stands there. -/
theorem State.updSlot_congr {f g : Slot → Slot} (h : f s.slots[i] = g s.slots[i]) : s.updSlot i f = s.updSlot i g := by
  rw [State.updSlot, h]
  rfl

end

theorem slotOf_of_slot {n : Nat} {i : SlotNo} (h : n = i.val) : slotOf n = some i := by
  rw [h]
  exact dif_pos i.isLt

theorem slotOf_of_gt {n : Nat} (h : 7 < n) : slotOf n = none := dif_neg (Nat.not_lt.mpr h)

/-! ## The pacing computation -/

/-- A pending peak that comes into force is the peak, and none is left. -/
theorem Play.forcePeak_eq (q : Play) : q.forcePeak = { q with x.peak := q.p.pendingPeak.getD q.x.peak, p.pendingPeak := none } := by
  obtain ⟨x, p, strained⟩ := q
  obtain ⟨rate, phase, target, pendingPeak, credit, sent, taperStop⟩ := p
  cases pendingPeak <;> rfl

@[simp] theorem Play.forcePeak_floor (q : Play) : q.forcePeak.x.floor = q.x.floor := by rw [q.forcePeak_eq]
@[simp] theorem Play.forcePeak_peak (q : Play) : q.forcePeak.x.peak = q.p.pendingPeak.getD q.x.peak := by rw [q.forcePeak_eq]
@[simp] theorem Play.forcePeak_pendingPeak (q : Play) : q.forcePeak.p.pendingPeak = none := by rw [q.forcePeak_eq]
@[simp] theorem Play.forcePeak_rate (q : Play) : q.forcePeak.p.rate = q.p.rate := by rw [q.forcePeak_eq]

@[simp] theorem Play.endCapFall_rate (q : Play) : q.endCapFall.p.rate = q.p.rate := by
  unfold Play.endCapFall
  split <;> rfl

/-- The cap check moves no rate (R154). -/
@[simp] theorem Play.capCheck_rate (q : Play) : q.capCheck.p.rate = q.p.rate := by
  unfold Play.capCheck
  split
  · rfl
  · dsimp only
    split
    · exact q.endCapFall_rate
    · split <;> exact q.endCapFall_rate

/-- A pending peak that comes into force moves no rate (R133). -/
@[simp] theorem Play.settlePeak_rate (q : Play) : q.settlePeak.p.rate = q.p.rate := by
  unfold Play.settlePeak
  split
  · rw [Play.capCheck_rate, Play.forcePeak_rate]
  · rfl

section
variable {q : Play}

theorem Play.moveRate_of_rising (h : q.p.phase = .rising) : q.moveRate.p.rate = min q.ceiling (q.p.rate + q.x.rise) := by
  unfold Play.moveRate
  simp only [h]

theorem Play.moveRate_of_falling (h : q.p.phase = .falling) : q.moveRate.p.rate = max q.targetRate (q.p.rate - q.x.fall) := by
  unfold Play.moveRate
  simp only [h]

theorem Play.moveRate_of_steady (hr : q.p.phase ≠ .rising) (hf : q.p.phase ≠ .falling) : q.moveRate = q := by
  unfold Play.moveRate
  split
  · exact absurd ‹_› hr
  · exact absurd ‹_› hf
  · rfl

end

/-- The rate after a rate update is the rate its phase moves it to (R133). -/
theorem Play.rateUpdate_rate (q : Play) : q.rateUpdate.p.rate = q.moveRate.p.rate := q.moveRate.settlePeak_rate

/-- R133: the rate moves up to the ceiling, down to the target, or not at all. -/
theorem Play.rateUpdate_rate_cases (q : Play) :
    q.p.phase = .rising ∧ q.rateUpdate.p.rate = min q.ceiling (q.p.rate + q.x.rise) ∨
    q.p.phase = .falling ∧ q.rateUpdate.p.rate = max q.targetRate (q.p.rate - q.x.fall) ∨
    q.p.phase ≠ .rising ∧ q.p.phase ≠ .falling ∧ q.rateUpdate.p.rate = q.p.rate := by
  rw [q.rateUpdate_rate]
  by_cases hr : q.p.phase = .rising
  · exact .inl ⟨hr, Play.moveRate_of_rising hr⟩
  · by_cases hf : q.p.phase = .falling
    · exact .inr (.inl ⟨hf, Play.moveRate_of_falling hf⟩)
    · exact .inr (.inr ⟨hr, hf, by rw [Play.moveRate_of_steady hr hf]⟩)

@[simp] theorem Play.liftPeak_peak (q : Play) : q.liftPeak.x.peak = q.x.peak := by
  unfold Play.liftPeak
  split
  · split <;> rfl
  · rfl

@[simp] theorem Play.liftPeak_pendingPeak (q : Play) : q.liftPeak.p.pendingPeak = q.p.pendingPeak := by
  unfold Play.liftPeak
  split
  · split <;> rfl
  · rfl

/-- The peak a RETUNE asks for, in its range (R144). -/
def Play.retunePeak (q : Play) (peak : Nat) : Nat := max q.x.floor (clampNat 8 100000 peak)

section
variable {q : Play} {peak : Nat}

/-- R144: a peak below the rate waits until the rate has fallen to it. -/
theorem Play.retune_of_below (h : q.retunePeak peak < q.p.rate) :
    q.retune peak = { q with
      p.pendingPeak := some (q.retunePeak peak)
      p.phase := .falling
      p.target := if q.p.phase = .falling && q.p.target = .floor then .floor else .pendingPeak } := if_pos h

/-- R144: a peak at or above the rate is in force at once. -/
theorem Play.retune_of_atLeast (h : q.p.rate ≤ q.retunePeak peak) :
    q.retune peak = ({ q with
      x.peak := q.retunePeak peak
      p.pendingPeak := none
      p.phase := if q.p.phase = .falling && q.p.target = .pendingPeak then .peak else q.p.phase } : Play).liftPeak :=
  if_neg (Nat.not_lt.mpr h)

end

/-- Leaving STRAINED sends no byte and takes none back (R156). -/
@[simp] theorem Play.leaveStrained_sent (q : Play) : q.leaveStrained.p.sent = q.p.sent := by
  unfold Play.leaveStrained
  split
  · split <;> rfl
  · rfl

/-- The pacing of a transfer that a TAPER-STOP brings to its end (R148). -/
def Play.taperStopped (q : Play) : Play := { q with p.taperStop := true, p.phase := .falling, p.target := .floor }

/-! ## A record becomes current -/

section
variable (x : Slot) (r : Transfer) (now : Nat)

/-- What a record that becomes current leaves of its slot, whether it starts or waits for its group (R128). -/
theorem Slot.become_record :
    (x.become r now).cur = some { xfer := r, tag := nextSlotTag x.tagCounter, nextDropped := false } ∧
      (x.become r now).tagCounter = nextSlotTag x.tagCounter ∧ (x.become r now).window = [] := by
  unfold Slot.become
  split <;> exact ⟨rfl, rfl, rfl⟩

theorem Slot.become_kept :
    (x.become r now).resume = x.resume ∧ (x.become r now).next = x.next ∧ (x.become r now).owner = x.owner ∧
      (x.become r now).ret = x.ret ∧ (x.become r now).sendQueue = x.sendQueue := by
  unfold Slot.become
  split <;> exact ⟨rfl, rfl, rfl, rfl, rfl⟩

/-- A record of no group starts at once (R128, R129). -/
theorem Slot.become_of_noGroup {r : Transfer} (hg : r.group = 0) :
    (x.become r now).state = .running ∧ (x.become r now).interval = some (now + Config.intervalTime) ∧
      (x.become r now).tracker = some Tracker.fresh := by
  unfold Slot.become
  rw [if_pos hg]
  exact ⟨rfl, rfl, rfl⟩

/-- A record of a group waits for it (R128, R158). -/
theorem Slot.become_of_group {r : Transfer} (hg : r.group ≠ 0) :
    (x.become r now).state = .primed ∧ (x.become r now).primedAt = some now := by
  unfold Slot.become
  rw [if_neg hg]
  exact ⟨rfl, rfl⟩

end

/-! ## The slot a PLAY takes -/

/-- An IDLE slot with no owner and no resume record (R128). -/
def Slot.bare (x : Slot) : Prop := x.state = .idle ∧ x.owner = none ∧ x.resume = none

section
variable {s : State} {i : SlotNo}

/-- The search for a slot takes the lowest one that satisfies its test. -/
theorem slotNos_find?_eq_some {p : SlotNo → Bool} (hi : p i = true) (hlow : ∀ j < i, ¬p j = true) :
    slotNos.find? p = some i := by
  rw [List.find?_eq_some_iff_getElem]
  refine ⟨hi, i.val, by simp [slotNos], by simp [slotNos], fun j hj => ?_⟩
  simpa [slotNos] using hlow ⟨j, hj.trans i.isLt⟩ hj

/-- In a rising list the lesser of two slots stands first. -/
theorem idxOf_le_idxOf_of_sorted {is : List SlotNo} {j : SlotNo} (h : is.Pairwise (· < ·)) (hi : i ∈ is) (hj : j ∈ is)
    (hij : i ≤ j) : is.idxOf i ≤ is.idxOf j := by
  by_contra hlt
  have hrel := List.pairwise_iff_getElem.mp h _ _ (List.idxOf_lt_length_of_mem hj) (List.idxOf_lt_length_of_mem hi)
    (Nat.not_le.mp hlt)
  rw [List.getElem_idxOf, List.getElem_idxOf] at hrel
  exact absurd hij (not_le.mpr hrel)

theorem State.anySlot_of_bare (hi : s.slots[i].bare) (hlow : ∀ j < i, ¬s.slots[j].bare) : s.anySlot = some i := by
  unfold State.anySlot
  rw [slotNos_find?_eq_some (i := i) (by simpa [Slot.bare, and_assoc] using hi)
    fun j hj => by simpa [Slot.bare, and_assoc] using hlow j hj]
  rfl

theorem State.anySlot_of_noBare (h : ∀ j : SlotNo, ¬s.slots[j].bare) : s.anySlot = s.oldestResume := by
  unfold State.anySlot
  rw [List.find?_eq_none.mpr fun j _ => by simpa [Slot.bare, and_assoc] using h j]
  rfl

/-- The IDLE slots with a resume record, in order. -/
def State.resumable (s : State) : List SlotNo := slotNos.filter fun i => s.slots[i].state = .idle && s.slots[i].resume.isSome

theorem State.mem_resumable : i ∈ s.resumable ↔ s.slots[i].state = .idle ∧ ∃ r, s.slots[i].resume = some r := by
  simp [State.resumable, slotNos, Option.isSome_iff_exists]

theorem State.resumable_sorted (s : State) : s.resumable.Pairwise (· < ·) := (List.pairwise_lt_finRange 8).filter _

/-- When a slot's resume record was made. -/
def State.madeAt (s : State) (i : SlotNo) : Nat := (s.slots[i].resume.map (·.made)).getD 0

theorem State.madeAt_eq {r : Resume} (hr : s.slots[i].resume = some r) : s.madeAt i = r.made := by
  rw [State.madeAt, hr]
  rfl

/-- The search for the oldest resume record is the library's search for a first minimum. -/
theorem State.oldestResume_eq (s : State) : s.oldestResume = s.resumable.argmin s.madeAt := by
  unfold State.oldestResume List.argmin
  congr 1
  funext best j
  cases best <;> rfl

theorem State.oldestResume_of_oldest {r : Resume} (hs : s.slots[i].state = .idle) (hr : s.slots[i].resume = some r)
    (hold : ∀ (j : SlotNo) (q : Resume), s.slots[j].state = .idle → s.slots[j].resume = some q →
      r.made ≤ q.made ∧ (j < i → r.made < q.made)) : s.oldestResume = some i := by
  rw [s.oldestResume_eq]
  refine List.mem_argmin_iff.mpr ⟨State.mem_resumable.mpr ⟨hs, r, hr⟩, fun j hj => ?least, fun j hj hle => ?first⟩
  all_goals
    obtain ⟨hidle, q, hq⟩ := State.mem_resumable.mp hj
    obtain ⟨hmade, hearlier⟩ := hold j q hidle hq
    rw [State.madeAt_eq hr, State.madeAt_eq hq] at *
  case least => exact hmade
  case first =>
    have hij : i ≤ j := not_lt.mp fun hlt => absurd (hearlier hlt) (Nat.not_lt.mpr hle)
    exact idxOf_le_idxOf_of_sorted s.resumable_sorted (State.mem_resumable.mpr ⟨hs, r, hr⟩) hj hij

theorem State.oldestResume_of_none (h : ∀ j : SlotNo, s.slots[j].state = .idle → s.slots[j].resume = none) :
    s.oldestResume = none := by
  rw [s.oldestResume_eq, List.argmin_eq_none, List.eq_nil_iff_forall_not_mem]
  intro j hj
  obtain ⟨hidle, q, hq⟩ := State.mem_resumable.mp hj
  rw [h j hidle] at hq
  cases hq

section
variable {n : Nat} (hn : n = i.val)
include hn

theorem State.playSlot_of_otherOwner {o sender : Nat} (ho : s.slots[i].owner = some o) (hne : o ≠ sender) :
    s.playSlot n sender = .error stNotAllowed := by
  unfold State.playSlot
  simp only [slotOf_of_slot hn, ho, Option.any_some, decide_eq_true_eq, ne_eq, hne, not_false_eq_true, if_true]

variable {sender : Nat} (ho : s.slots[i].owner = none ∨ s.slots[i].owner = some sender)
include ho

/-- A slot of the sender, or of nobody, is refused only for its next record (R127). -/
theorem State.playSlot_of_own : s.playSlot n sender =
    if s.slots[i].state ≠ .idle && s.slots[i].next.isSome then .error stNextFull else .ok i := by
  have hown : s.slots[i].owner.any (fun o => o ≠ sender) = false := by
    rcases ho with ho | ho <;> rw [ho] <;> simp
  unfold State.playSlot
  simp only [slotOf_of_slot hn, hown, Bool.false_eq_true, if_false]

theorem State.playSlot_of_full (hs : s.slots[i].state ≠ .idle) (hx : s.slots[i].next ≠ none) :
    s.playSlot n sender = .error stNextFull := by
  rw [State.playSlot_of_own hn ho, if_pos]
  simpa [Option.isSome_iff_ne_none] using ⟨hs, hx⟩

theorem State.playSlot_of_room (hs : s.slots[i].state = .idle ∨ s.slots[i].next = none) :
    s.playSlot n sender = .ok i := by
  rw [State.playSlot_of_own hn ho, if_neg]
  rcases hs with hs | hs <;> rw [hs] <;> simp

end

section
variable {n : Nat} (sender : Nat) (hn : 7 < n)
include hn

theorem State.playSlot_of_any (ha : s.anySlot = some i) : s.playSlot n sender = .ok i := by
  unfold State.playSlot
  simp only [slotOf_of_gt hn, ha]

theorem State.playSlot_of_noneLeft (ha : s.anySlot = none) : s.playSlot n sender = .error stBusy := by
  unfold State.playSlot
  simp only [slotOf_of_gt hn, ha]

end

end

/-! ## PLAY -/

section
variable {s : State} {id : Nat}

theorem State.claimRefusal_of_none (ho : s.obj? id = none) : s.claimRefusal id = some stNoSuch := by
  unfold State.claimRefusal
  simp only [ho]

variable {o : Obj} (ho : s.obj? id = some o)
include ho

theorem State.claimRefusal_of_opened (hs : o.state = .opened) : s.claimRefusal id = some stNotComplete := by
  unfold State.claimRefusal
  simp only [ho, hs]

theorem State.claimRefusal_of_retired (hs : o.state = .retired) : s.claimRefusal id = some stRetired := by
  unfold State.claimRefusal
  simp only [ho, hs]

theorem State.claimRefusal_of_complete (hs : o.state = .complete) : s.claimRefusal id = none := by
  unfold State.claimRefusal
  simp only [ho, hs]

end

/-- A PLAY whose body R127 refuses before it looks at a slot. -/
def Msg.playBad (m : Msg) : Prop := (7 < byteAt m.body 0 ∧ byteAt m.body 0 ≠ 0xFF) ∨ playRefused m.body = true

/-- The slot an accepted PLAY names or finds, with its return address and its owner (R128). -/
def State.playHeld (s : State) (m : Msg) (i : SlotNo) : Slot :=
  { s.slots[i] with
    ret := some m.src
    owner := if 7 < byteAt m.body 0 then some (s.sender m) else some (s.slots[i].owner.getD (s.sender m)) }

/-- An accepted PLAY, for an object of a length: its record becomes current in an IDLE slot, or next in another (R128). -/
def State.playPlaced (s : State) (m : Msg) (i : SlotNo) (total : Nat) : Work :=
  let v := s.claim (field m.body 1 4)
  let r := playTransfer m.body total
  let y := ({ s.playHeld m i with resume := none } : Slot).become r s.now
  if s.slots[i].state = .idle then
    (v.updSlot i fun _ => y,
     releaseTasks (s.slots[i].resume.toList.map fun q => q.xfer.obj) ++
       [.fill i, .send (v.replyTo m stOk (playData i (placement r) y.tagCounter r))])
  else (v.updSlot i fun _ => { s.playHeld m i with next := some r }, [.send (v.replyTo m stOk (playData i 2 0 r))])

section
variable {m : Msg} {s : State} {i : SlotNo} {total : Nat}

theorem State.playPlaced_of_idle (hs : s.slots[i].state = .idle) :
    let v := s.claim (field m.body 1 4)
    let r := playTransfer m.body total
    let y := ({ s.playHeld m i with resume := none } : Slot).become r s.now
    s.playPlaced m i total = (v.updSlot i fun _ => y,
      releaseTasks (s.slots[i].resume.toList.map fun q => q.xfer.obj) ++
        [.fill i, .send (v.replyTo m stOk (playData i (placement r) y.tagCounter r))]) := if_pos hs

theorem State.playPlaced_of_busy (hs : s.slots[i].state ≠ .idle) :
    let v := s.claim (field m.body 1 4)
    let r := playTransfer m.body total
    s.playPlaced m i total =
      (v.updSlot i fun _ => { s.playHeld m i with next := some r }, [.send (v.replyTo m stOk (playData i 2 0 r))]) := if_neg hs

end

theorem play_of_bad {m : Msg} (s : State) (h : m.playBad) : play m s = s.refuse m stBadRange := by
  unfold play
  rcases h with h | h
  · exact if_pos (by simpa using h)
  · rw [h]
    simp

section
variable {m : Msg} {s : State} (hok : ¬m.playBad)
include hok

/-- A PLAY in range is judged by its slot, then by its object (R127). -/
theorem play_of_inRange : play m s = match s.playSlot (byteAt m.body 0) (s.sender m) with
    | .error st => s.refuse m st
    | .ok i =>
      match s.claimRefusal (field m.body 1 4), s.obj? (field m.body 1 4) with
      | some st, _ => s.refuse m st
      | none, none => s.refuse m stNoSuch
      | none, some o =>
        if o.total ≤ field m.body 5 8 then s.refuse m stBadRange
        else (s.claim (field m.body 1 4)).placePlay m i (playTransfer m.body o.total) (7 < byteAt m.body 0) := by
  obtain ⟨hslot, hbody⟩ := not_or.mp hok
  exact (if_neg (by simpa using hslot)).trans (if_neg hbody)

theorem play_of_noSlot {status : Nat} (hp : s.playSlot (byteAt m.body 0) (s.sender m) = .error status) :
    play m s = s.refuse m status := by
  rw [play_of_inRange hok, hp]

variable {i : SlotNo} (hp : s.playSlot (byteAt m.body 0) (s.sender m) = .ok i)
include hp

theorem play_of_noClaim {status : Nat} (hc : s.claimRefusal (field m.body 1 4) = some status) :
    play m s = s.refuse m status := by
  rw [play_of_inRange hok, hp]
  simp only [hc]

variable {o : Obj} (hc : s.claimRefusal (field m.body 1 4) = none) (ho : s.obj? (field m.body 1 4) = some o)
include hc ho

theorem play_of_pastEnd (he : o.total ≤ field m.body 5 8) : play m s = s.refuse m stBadRange := by
  rw [play_of_inRange hok, hp]
  simp only [hc, ho]
  exact if_pos he

theorem play_of_accepted (he : field m.body 5 8 < o.total) : play m s = s.playPlaced m i o.total := by
  rw [play_of_inRange hok, hp]
  simp only [hc, ho, Nat.not_le.mpr he, if_false]
  simp only [State.placePlay, decide_eq_true_eq]
  rfl

end

/-! ## RESUME -/

section
variable {m : Msg} {s : State} {i : SlotNo}

theorem resume_of_badRange (h : 7 < byteAt m.body 0) : resume m s = s.refuse m stBadRange := by
  unfold resume
  rw [slotOf_of_gt h]

variable (hi : byteAt m.body 0 = i.val)
include hi

theorem resume_of_notAllowed (hb : ¬(s.slots[i].state = .idle ∧ s.slots[i].resume = none))
    (ho : s.slots[i].owner ≠ some (s.sender m)) : resume m s = s.refuse m stNotAllowed := by
  unfold resume
  rw [slotOf_of_slot hi]
  refine if_pos ?_
  by_cases hs : s.slots[i].state = .idle
  · obtain ⟨r, hr⟩ := Option.ne_none_iff_exists'.mp fun hr => hb ⟨hs, hr⟩
    rw [hr]
    simpa using ho
  · simpa [-Fin.getElem_fin, hs] using ho

variable (ha : (s.slots[i].state = .idle ∧ s.slots[i].resume = none) ∨ s.slots[i].owner = some (s.sender m))
include ha

/-- R149: a RESUME of a slot its sender may have is judged by its fields, the slot's state and its resume record. -/
theorem resume_of_allowed : resume m s =
    if resumeRefused m.body then s.refuse m stBadRange
    else if s.slots[i].state ≠ .idle then s.refuse m stBusy
    else match s.slots[i].resume with
      | none => s.refuse m stNoSuch
      | some r =>
        let y := ({ s.slots[i] with resume := none, ret := some m.src } : Slot).become (r.restart m.body) s.now
        (s.updSlot i fun _ => y, [.fill i, .send (s.replyTo m stOk (be 2 y.tagCounter ++
          be 8 (r.restart m.body).start ++ be 8 (r.restart m.body).length ++ be 1 (placement (r.restart m.body))))]) := by
  unfold resume
  rw [slotOf_of_slot hi]
  refine (if_neg ?_).trans rfl
  rcases ha with ⟨hs, hr⟩ | ho
  · rw [hs, hr]
    simp
  · rw [ho]
    simp

theorem resume_of_refused (hf : resumeRefused m.body = true) : resume m s = s.refuse m stBadRange :=
  (resume_of_allowed hi ha).trans (if_pos hf)

variable (hf : resumeRefused m.body = false)
include hf

theorem resume_of_busy (hs : s.slots[i].state ≠ .idle) : resume m s = s.refuse m stBusy := by
  rw [resume_of_allowed hi ha, hf]
  exact if_pos hs

variable (hs : s.slots[i].state = .idle)
include hs

theorem resume_of_noRecord (hr : s.slots[i].resume = none) : resume m s = s.refuse m stNoSuch := by
  rw [resume_of_allowed hi ha, hf, hs, hr]
  rfl

theorem resume_of_record {r : Resume} (hr : s.slots[i].resume = some r) :
    let y := ({ s.slots[i] with resume := none, ret := some m.src } : Slot).become (r.restart m.body) s.now
    resume m s = (s.updSlot i fun _ => y, [.fill i, .send (s.replyTo m stOk (be 2 y.tagCounter ++
      be 8 (r.restart m.body).start ++ be 8 (r.restart m.body).length ++ be 1 (placement (r.restart m.body))))]) := by
  rw [resume_of_allowed hi ha, hf, hs]
  simp only [hr]
  rfl

end

/-- A RESUME sends on from the first byte not sent, and sends what is left (R149). -/
theorem Resume.restart_range (r : Resume) (b : List Byte) :
    (r.restart b).start = r.xfer.start + r.sent ∧ (r.restart b).length = r.xfer.length - r.sent := by
  unfold Resume.restart
  dsimp only
  split <;> exact ⟨rfl, rfl⟩

/-! ## Control requests -/

section
variable {m : Msg} {s : State}

theorem State.ownSlot_of_badRange (h : 7 < byteAt m.body 0) : s.ownSlot m = .error stBadRange := by
  unfold State.ownSlot
  rw [slotOf_of_gt h]

variable {i : SlotNo} (hi : byteAt m.body 0 = i.val)
include hi

theorem State.ownSlot_of_notOwner (ho : s.slots[i].owner ≠ some (s.sender m)) : s.ownSlot m = .error stNotAllowed := by
  unfold State.ownSlot
  rw [slotOf_of_slot hi]
  exact if_neg ho

theorem State.ownSlot_of_owner (ho : s.slots[i].owner = some (s.sender m)) : s.ownSlot m = .ok i := by
  unfold State.ownSlot
  rw [slotOf_of_slot hi]
  exact if_pos ho

end

/-- The request is first judged against the slot it names (R141). -/
def JudgesSlot (act : Msg → State → Work) : Prop :=
  ∀ (m : Msg) (s : State) (status : Nat), s.ownSlot m = .error status → act m s = s.refuse m status

theorem rateAction_judgesSlot (act : Play → Play) : JudgesSlot (rateAction act) := fun m s status h => by
  unfold rateAction
  rw [h]

section
variable {s : State} {t : Nat} {m : Msg} {act : Msg → State → Work} (hj : JudgesSlot act) {c : Host.Outcome State Fault Refusal}
  (hc : c = .next (State.finish (act m (s.met t m))))
include hj hc

/-- A control request for no slot (R141). -/
theorem JudgesSlot.badRange (h : 7 < byteAt m.body 0) : c = .next ((s.met t m).reply m stBadRange []) :=
  next_of_noTasks hc (hj m _ _ (State.ownSlot_of_badRange h))

/-- A control request for a slot of another peer, or of none (R141). -/
theorem JudgesSlot.notAllowed {i : SlotNo} (hi : byteAt m.body 0 = i.val)
    (ho : (s.met t m).slots[i].owner ≠ some ((s.met t m).sender m)) : c = .next ((s.met t m).reply m stNotAllowed []) :=
  next_of_noTasks hc (hj m _ _ (State.ownSlot_of_notOwner hi ho))

end

/-! ## RATE -/

/-- A RATE of six bytes goes to the row of its action (assumption log 15). -/
theorem exec_rateRow {s : State} {t : Nat} {m : Msg} (h : s.Settled t) (hb : s.Brings t m .dispatch)
    (hk : m.kind = Kind.rate.code) (hl : m.body.length = 6) {row : Nat × Instr × (Play → Play)} (hr : row ∈ rateRows m t)
    (ha : byteAt m.body 1 = row.1) : exec row.2.1 s = .next (State.finish (rateAction row.2.2 m (s.met t m))) := by
  have hrate : ∀ a, byteAt m.body 1 = a → isRate a m = true := fun a ha => by
    simp [isRate, isKind_of_kind hk, hl, ha]
  simp only [rateRows, List.mem_cons, List.not_mem_nil, or_false] at hr
  rcases hr with rfl | rfl | rfl | rfl | rfl
  · exact message_dispatched h hb (by simp [isJumpFloor, isRate, isKind_of_kind hk, show byteAt m.body 1 = 0 from ha])
  · exact message_dispatched h hb (hrate 1 ha)
  · exact message_dispatched h hb (hrate 2 ha)
  · exact message_dispatched h hb (hrate 3 ha)
  · exact message_dispatched h hb (hrate 4 ha)

theorem rateRows_action_le {m : Msg} {t : Nat} {row : Nat × Instr × (Play → Play)} (hr : row ∈ rateRows m t) : row.1 ≤ 4 := by
  simp only [rateRows, List.mem_cons, List.not_mem_nil, or_false] at hr
  rcases hr with rfl | rfl | rfl | rfl | rfl <;> simp

/-- The row JUMP_FLOOR takes a RATE whose action is above 4 (assumption log 15). -/
theorem isJumpFloor_of_badAction {m : Msg} (hk : m.kind = Kind.rate.code) (ha : 4 < byteAt m.body 1) :
    isJumpFloor m = true := by
  have hne : ∀ a ≤ 4, byteAt m.body 1 ≠ a := fun a hle he => by omega
  simp [isJumpFloor, isRate, isKind_of_kind hk, hne]

section
variable {m : Msg} {s : State} {i : SlotNo} (act : Play → Play) (hi : s.ownSlot m = .ok i)
include hi

theorem rateAction_of_badAction (ha : 4 < byteAt m.body 1) : rateAction act m s = s.refuse m stBadRange := by
  unfold rateAction
  rw [hi]
  exact if_pos ha

variable (ha : byteAt m.body 1 ≤ 4)
include ha

theorem rateAction_of_notRunning (hr : s.slots[i].runs = false) : rateAction act m s = s.refuse m stNotRunning := by
  unfold rateAction
  simp only [hi, Nat.not_lt.mpr ha, hr, if_false, Bool.not_false, if_true]

variable {q : Play} (hr : s.slots[i].runs = true) (hq : s.slots[i].play? = some q)
include hr hq

theorem rateAction_of_taperStop (ht : q.p.taperStop = true) : rateAction act m s = s.refuse m stBusy := by
  unfold rateAction
  simp only [hi, Nat.not_lt.mpr ha, hr, hq, ht, if_false, Bool.not_true, Bool.false_eq_true, if_true]

theorem rateAction_of_running (ht : q.p.taperStop = false) : rateAction act m s =
    ((s.updSlot i fun x => x.setPlay (act q).capCheck).reply m stOk (rateData (act q).capCheck), []) := by
  unfold rateAction
  simp only [hi, Nat.not_lt.mpr ha, hr, hq, ht, if_false, Bool.not_true, Bool.false_eq_true]

end

/-! ## RETARGET -/

/-- The length a RETARGET asks for, cut to end at the object's end (R145). -/
def State.retargetLength (s : State) (m : Msg) (c : Current) : Nat :=
  min (field m.body 1 8) (((s.obj? c.xfer.obj).map (·.total)).getD 0 - c.xfer.start)

/-- A slot's current transfer has a new length, and its tracker is reset (R145, R157). -/
def Slot.retargeted (x : Slot) (l : Nat) : Slot :=
  ({ x with cur := x.cur.map fun c => { c with xfer.length := l } } : Slot).resetTracker

theorem Slot.resetTracker_tracker (x : Slot) : x.resetTracker.tracker = some Tracker.fresh := rfl

/-- Resetting the tracker sends no byte and takes none back (R157). -/
theorem Slot.resetTracker_sent (x : Slot) : x.resetTracker.sent = x.sent := by
  unfold Slot.resetTracker Slot.play?
  rcases hc : x.cur with _ | c
  · rfl
  · rcases hp : x.pacer with _ | p
    · simp [Slot.sent, hp]
    · dsimp only
      split <;> simp [Slot.sent, Slot.setPlay, hp]

section
variable {m : Msg} {s : State} {i : SlotNo} (hi : s.ownSlot m = .ok i)
include hi

theorem retarget_of_notRunning (hr : s.slots[i].runs = false) : retarget m s = s.refuse m stNotRunning := by
  unfold retarget
  simp only [hi, hr, Bool.not_false, if_true]

variable (hr : s.slots[i].runs = true)
include hr

theorem retarget_of_zero (hl : field m.body 1 8 = 0) : retarget m s = s.refuse m stBadRange := by
  unfold retarget
  simp only [hi, hr, hl, Bool.not_true, Bool.false_eq_true, if_false, if_true]

variable {c : Current} (hl : field m.body 1 8 ≠ 0) (hc : s.slots[i].cur = some c)
include hl hc

/-- R145: a new end at or before the bytes sent ends the transfer. -/
theorem retarget_of_reached (hle : s.retargetLength m c ≤ s.slots[i].sent) : retarget m s =
    (s, [.endTransfer i .retarget, .send (s.replyTo m stOk (be 1 1 ++ be 8 (s.retargetLength m c)))]) := by
  unfold retarget
  simp only [hi, hr, hl, hc, Bool.not_true, Bool.false_eq_true, if_false]
  exact if_pos hle

/-- R145: a new end past the bytes sent moves the end, and the positions past it are freed. -/
theorem retarget_of_ahead (hlt : s.slots[i].sent < s.retargetLength m c) :
    let v := s.updSlot i fun x => x.retargeted (s.retargetLength m c)
    let w := v.freePositions i fun w => c.xfer.start + s.retargetLength m c ≤ w.offset
    retarget m s = (w.1, w.2 ++ [.fill i, .send (v.replyTo m stOk (be 1 0 ++ be 8 (s.retargetLength m c)))]) := by
  unfold retarget
  simp only [hi, hr, hl, hc, Bool.not_true, Bool.false_eq_true, if_false]
  exact if_neg (Nat.not_le.mpr hlt)

end

/-! ## DROP-NEXT, STOP and TAPER-STOP -/

section
variable {m : Msg} {s : State} {i : SlotNo} (hi : s.ownSlot m = .ok i)
include hi

theorem dropNext_of_none (hn : s.slots[i].next = none) : dropNext m s = s.refuse m stNoSuch := by
  unfold dropNext
  simp only [hi, hn]

theorem dropNext_of_next {r : Transfer} (hn : s.slots[i].next = some r) :
    let v := s.updSlot i fun x => { x with next := none }
    dropNext m s = (v, [.releasePlay r.obj, .endWork, .send (v.replyTo m stOk [])]) := by
  unfold dropNext
  simp only [hi, hn]
  rfl

theorem stop_of_idle (hs : s.slots[i].state = .idle) : stop m s = s.refuse m stNotRunning := by
  unfold stop
  simp only [hi, hs, if_true]

theorem stop_of_busy (hs : s.slots[i].state ≠ .idle) :
    stop m s = (s, [.endTransfer i .stopped, .send (s.replyTo m stOk [])]) := by
  unfold stop
  simp only [hi, hs, if_false]

theorem taperStop_of_notRunning (hr : s.slots[i].runs = false) : taperStop m s = s.refuse m stNotRunning := by
  unfold taperStop
  simp only [hi, hr, Bool.not_false, if_true]

variable {q : Play} (hr : s.slots[i].runs = true) (hq : s.slots[i].play? = some q)
include hr hq

/-- R148: at the floor the transfer ends at once. -/
theorem taperStop_of_floor (hf : q.p.rate = q.x.floor) : taperStop m s =
    (s.taperDrop i, releaseTasks (s.slots[i].next.toList.map (·.obj)) ++
      [.endTransfer i .tapered, .send ((s.taperDrop i).replyTo m stOk [1])]) := by
  unfold taperStop
  simp only [hi, hr, hq, hf, Bool.not_true, Bool.false_eq_true, if_false, if_true]

/-- R148: above the floor the rate falls to it first. -/
theorem taperStop_of_above (hf : q.p.rate ≠ q.x.floor) :
    let w := (s.taperDrop i).updSlot i fun x => x.setPlay q.taperStopped
    taperStop m s =
      (w, releaseTasks (s.slots[i].next.toList.map (·.obj)) ++ [.send (w.replyTo m stOk [0])]) := by
  unfold taperStop
  simp only [hi, hr, hq, hf, Bool.not_true, Bool.false_eq_true, if_false]
  rfl

end

/-- R148: a TAPER-STOP drops the next record and marks the current one. -/
theorem State.taperDrop_of_next {s : State} {i : SlotNo} {r : Transfer} (hn : s.slots[i].next = some r) :
    s.taperDrop i = s.updSlot i fun x => { x with next := none, cur := x.cur.map fun c => { c with nextDropped := true } } :=
  s.updSlot_congr i (if_pos (by rw [hn]; rfl))

/-- A message that is all the work left is queued. -/
theorem finish_send (s : State) (m : OutMsg) : State.finish (s, [.send m]) = s.send m := finish_one rfl

/-! ## The four controls of a slot -/

/-- The requests of R145 to R148, each with its row and its block's work. -/
def slotControls (t : Nat) : List (Kind × Instr × (Msg → State → Work)) :=
  [(.retarget, .retarget t, retarget), (.dropNext, .dropNext t, dropNext), (.stop, .stop t, stop),
   (.taperStop, .taperStop t, taperStop)]

theorem slotControl_judgesSlot {t : Nat} {row : Kind × Instr × (Msg → State → Work)} (hr : row ∈ slotControls t) :
    JudgesSlot row.2.2 := by
  simp only [slotControls, List.mem_cons, List.not_mem_nil, or_false] at hr
  intro m s status h
  rcases hr with rfl | rfl | rfl | rfl
  · simp only [retarget, h]
  · simp only [dropNext, h]
  · simp only [stop, h]
  · simp only [taperStop, h]

section
variable {s : State} {t : Nat} {m : Msg} (h : s.Settled t) (hb : s.Brings t m .dispatch)
include h hb

theorem exec_slotControl {row : Kind × Instr × (Msg → State → Work)} (hr : row ∈ slotControls t)
    (hk : m.kind = row.1.code) : exec row.2.1 s = .next (State.finish (row.2.2 m (s.met t m))) := by
  simp only [slotControls, List.mem_cons, List.not_mem_nil, or_false] at hr
  rcases hr with rfl | rfl | rfl | rfl <;> exact message_dispatched h hb (isKind_of_kind hk)

/-- A control of no slot, or of another peer's, is refused (R141). -/
theorem slotControl_refused {row : Kind × Instr × (Msg → State → Work)} (hr : row ∈ slotControls t) (hk : m.kind = row.1.code) :
    (7 < byteAt m.body 0 → exec row.2.1 s = .next ((s.met t m).reply m stBadRange [])) ∧
    ∀ i : SlotNo, byteAt m.body 0 = i.val → (s.met t m).slots[i].owner ≠ some ((s.met t m).sender m) →
      exec row.2.1 s = .next ((s.met t m).reply m stNotAllowed []) :=
  ⟨(slotControl_judgesSlot hr).badRange (exec_slotControl h hb hr hk),
   fun _ => (slotControl_judgesSlot hr).notAllowed (exec_slotControl h hb hr hk)⟩

variable {u : State} (hu : s.met t m = u) {i : SlotNo} (hown : u.ownSlot m = .ok i)
include hu hown

/-- A RETARGET of its sender's slot that does not move the end (R145). -/
theorem exec_retarget_own (hk : m.kind = Kind.retarget.code) :
    (u.slots[i].runs = false → exec (.retarget t) s = .next (u.reply m stNotRunning [])) ∧
    (u.slots[i].runs = true → field m.body 1 8 = 0 → exec (.retarget t) s = .next (u.reply m stBadRange [])) ∧
    ∀ c, u.slots[i].runs = true → field m.body 1 8 ≠ 0 → u.slots[i].cur = some c → u.retargetLength m c ≤ u.slots[i].sent →
      exec (.retarget t) s = .next (State.finish (u,
        [.endTransfer i .retarget, .send (u.replyTo m stOk (be 1 1 ++ be 8 (u.retargetLength m c)))])) := by
  have hexec : exec (.retarget t) s = .next (State.finish (retarget m u)) := hu ▸ message_dispatched h hb (isKind_of_kind hk)
  exact ⟨fun hr => next_of_noTasks hexec (retarget_of_notRunning hown hr),
    fun hr hl => next_of_noTasks hexec (retarget_of_zero hown hr hl),
    fun c hr hl hc hle => hexec.trans (by rw [retarget_of_reached hown hr hl hc hle])⟩

/-- A DROP-NEXT of its sender's slot (R146). -/
theorem exec_dropNext_own (hk : m.kind = Kind.dropNext.code) :
    (u.slots[i].next = none → exec (.dropNext t) s = .next (u.reply m stNoSuch [])) ∧
    ∀ r, u.slots[i].next = some r →
      let v := u.updSlot i fun x => { x with next := none }
      exec (.dropNext t) s = .next (State.finish (v, [.releasePlay r.obj, .endWork, .send (v.replyTo m stOk [])])) := by
  have hexec : exec (.dropNext t) s = .next (State.finish (dropNext m u)) := hu ▸ message_dispatched h hb (isKind_of_kind hk)
  exact ⟨fun hn => next_of_noTasks hexec (dropNext_of_none hown hn),
    fun r hn => hexec.trans (by rw [dropNext_of_next hown hn])⟩

/-- A STOP of its sender's slot (R147). -/
theorem exec_stop_own (hk : m.kind = Kind.stop.code) :
    (u.slots[i].state = .idle → exec (.stop t) s = .next (u.reply m stNotRunning [])) ∧
    (u.slots[i].state ≠ .idle →
      exec (.stop t) s = .next (State.finish (u, [.endTransfer i .stopped, .send (u.replyTo m stOk [])]))) := by
  have hexec : exec (.stop t) s = .next (State.finish (stop m u)) := hu ▸ message_dispatched h hb (isKind_of_kind hk)
  exact ⟨fun hs => next_of_noTasks hexec (stop_of_idle hown hs), fun hs => hexec.trans (by rw [stop_of_busy hown hs])⟩

/-- A TAPER-STOP of its sender's slot, with a next record and without (R148). -/
theorem exec_taperStop_own (hk : m.kind = Kind.taperStop.code) :
    (u.slots[i].runs = false → exec (.taperStop t) s = .next (u.reply m stNotRunning [])) ∧
    ∀ q, u.slots[i].runs = true → u.slots[i].play? = some q →
      let v := u.taperDrop i
      let w := v.updSlot i fun x => x.setPlay q.taperStopped
      (u.slots[i].next = none →
        (q.p.rate = q.x.floor → exec (.taperStop t) s = .next (State.finish (v,
          [.endTransfer i .tapered, .send (v.replyTo m stOk [1])]))) ∧
        (q.p.rate ≠ q.x.floor → exec (.taperStop t) s = .next (w.reply m stOk [0]))) ∧
      ∀ r, u.slots[i].next = some r →
        v = u.updSlot i (fun x => { x with next := none, cur := x.cur.map fun c => { c with nextDropped := true } }) ∧
        (q.p.rate = q.x.floor → exec (.taperStop t) s = .next (State.finish (v,
          [.releasePlay r.obj, .endWork, .endTransfer i .tapered, .send (v.replyTo m stOk [1])]))) ∧
        (q.p.rate ≠ q.x.floor → exec (.taperStop t) s = .next (State.finish (w,
          [.releasePlay r.obj, .endWork, .send (w.replyTo m stOk [0])]))) := by
  have hexec : exec (.taperStop t) s = .next (State.finish (taperStop m u)) := hu ▸ message_dispatched h hb (isKind_of_kind hk)
  refine ⟨fun hr => next_of_noTasks hexec (taperStop_of_notRunning hown hr), fun q hr hq =>
    ⟨fun hn => ⟨fun hf => ?floor, fun hf => ?above⟩, fun r hn =>
      ⟨State.taperDrop_of_next hn, fun hf => ?floorNext, fun hf => ?aboveNext⟩⟩⟩
  case floor | floorNext =>
    rw [hexec, taperStop_of_floor hown hr hq hf, hn]
    rfl
  case above =>
    rw [hexec, taperStop_of_above hown hr hq hf, hn]
    exact congrArg _ (finish_send _ _)
  case aboveNext =>
    rw [hexec, taperStop_of_above hown hr hq hf, hn]
    rfl

end

/-! ## A STOP that finds a next record -/

/-- A row makes nothing of a message of another row (R6). -/
theorem message_passedBy {s : State} {t : Nat} {m : Msg} {mine : Msg → Bool} {act : Msg → State → Work} (h : s.Settled t)
    (hf : (s.atTime t).headFrame = some (.hbx m)) (hm : mine m = false) : s.message t mine act = .next (s.atTime t) := by
  refine event_done h ?_
  unfold State.takeMessage
  simp only [hf, hm, Bool.false_eq_true, if_false]
  rfl

/-- A viewer. -/
def stopPeer : Peer :=
  { mac := 5, last := none, tag := 1, roles := 7, quota := 0, charged := 0, lastRun := none, lastCounted := none }

/-- A transfer with a floor of 8 bytes an interval. -/
def stopXfer : Transfer :=
  { obj := 1, start := 0, length := 9, profile := .shaped, floor := 8, peak := 100, rise := 1, fall := 1, taper := .none
    mark1 := 0, mark2 := 0, group := 0, haltWithGroup := false, lagBand := 5 }

/-- It is sent above its floor. -/
def stopPlay : Play := { x := stopXfer, p := { startPacer stopXfer with rate := 9 }, strained := false }

/-- The viewer's STOP of slot 0. -/
def stopMsg : Msg :=
  { src := { mac := 5, ip := 6, port := 7 }, bcast := false, kind := Kind.stop.code, tag := 1, seq := 0, bodyLength := 1, flags := 0
    body := [0] }

/-- The STOP as it stands in the receive FIFO. -/
def stopFrame : List Byte :=
  let image := ConfigImage.defaults
  ethernet image.mac 5 0x0800 (ipBytes 6 image.ip 0 (udpBytes 6 image.ip 7 image.port (hbxBytes Kind.stop.code 1 0 0 [0])))

/-- The box AWAKE, with the STOP in its receive FIFO, and in slot 0 the viewer's transfer and a next record. -/
def stopBox : State :=
  { State.reset with
    power.state := .awake
    store.cond := some .whole
    loader.settled := true
    link.peers := Link.reset.peers.set 0 (some stopPeer)
    link.fifo := [stopFrame]
    slots := State.reset.slots.set 0 { Slot.reset with
      state := .running
      owner := some 0
      cur := some { xfer := stopXfer, tag := 1, nextDropped := false }
      next := some stopXfer
      pacer := some stopPlay.p } }

theorem stopBox_premises : stopBox.Settled 0 ∧ stopBox.Brings 0 stopMsg .dispatch :=
  ⟨⟨rfl, Nat.le_refl 0⟩, by decide +kernel, by decide +kernel⟩

/-- What a state's slot is to a message about it: the slot of its sender, that runs a transfer and has a next record. -/
structure State.StreamsFor (u : State) (m : Msg) (i : SlotNo) (q : Play) (r : Transfer) : Prop where
  named : byteAt m.body 0 = i.val
  owner : u.slots[i].owner = some (u.sender m)
  runs : u.slots[i].runs = true
  play : u.slots[i].play? = some q
  next : u.slots[i].next = some r

theorem stopBox_slot : (stopBox.met 0 stopMsg).StreamsFor stopMsg 0 stopPlay stopXfer where
  named := rfl
  owner := by decide +kernel
  runs := by decide +kernel
  play := by decide +kernel
  next := by decide +kernel

/-! ## Intervals -/

section
variable {s : State} {i : SlotNo}

/-- A slot's interval is over, and the next one runs (R134). -/
def State.nextInterval (s : State) (i : SlotNo) : State :=
  s.updSlot i fun x => { x with interval := x.interval.map fun e => e + Config.intervalTime }

/-- A slot's pacing after the taper check and the rate update, its next interval running (R132, R133). -/
def State.paced (s : State) (i : SlotNo) (q : Play) : State :=
  s.updSlot i fun x => { x.setPlay q with interval := x.interval.map fun e => e + Config.intervalTime }

section
variable {q : Play} (hq : s.slots[i].play? = some q)
include hq

/-- R134: a taper stop that has come down to the floor ends the transfer. -/
theorem State.pace_of_tapered (ht : q.taperCheck.rateUpdate.p.taperStop = true)
    (hf : q.taperCheck.rateUpdate.p.rate = q.taperCheck.rateUpdate.x.floor) :
    s.pace i = (s.paced i q.taperCheck.rateUpdate, [.endTransfer i .tapered]) := by
  unfold State.pace
  simp only [hq]
  exact if_pos (by simp [ht, hf])

/-- R134: else the rate is added to the credit, and the slot emits. -/
theorem State.pace_of_going (h : q.taperCheck.rateUpdate.p.taperStop = false ∨
    q.taperCheck.rateUpdate.p.rate ≠ q.taperCheck.rateUpdate.x.floor) :
    s.pace i = ((s.paced i q.taperCheck.rateUpdate).updSlot i
      fun x => { x with pacer := x.pacer.map fun p => { p with credit := p.credit + p.rate } }, [.emit i]) := by
  unfold State.pace
  simp only [hq]
  refine if_neg ?_
  rcases h with h | h <;> simp [h]

end

theorem pacingInterval_of_due (hs : s.slots[i].state = .running) (hd : s.due s.slots[i].interval = true) :
    pacingInterval i s = s.pace i := if_pos (by rw [hs, hd]; rfl)

theorem pacingInterval_of_not_due (hd : ¬s.due s.slots[i].interval = true) : pacingInterval i s = s.idle :=
  if_neg fun h => hd (Bool.and_eq_true_iff.mp h).2

theorem stalledInterval_of_not_due (hd : ¬s.due s.slots[i].interval = true) : stalledInterval i s = s.idle := by
  unfold stalledInterval
  dsimp only
  split
  · rfl
  · exact if_neg fun h => hd (Bool.and_eq_true_iff.mp h).2

/-- The slot goes on after a stall (R136). -/
def State.unstall (s : State) (i : SlotNo) : State := s.updSlot i fun x => { x with state := .running, stallStart := none }

section
variable {c : Current} (hs : s.slots[i].state = .stalled) (hc : s.slots[i].cur = some c)
  (hd : s.due s.slots[i].interval = true)
include hs hc hd

/-- R136: a stalled slot's interval looks at its next segment. -/
theorem stalledInterval_of_due :
    let g := s.slots[i].nextSegment c
    stalledInterval i s =
      if s.slots[i].segmentLost g.1 g.2 then (s.nextInterval i, [.endTransfer i .lost])
      else if s.slots[i].segmentReady g.1 g.2 then (s.unstall i).pace i else (s.nextInterval i).idle := by
  unfold stalledInterval
  simp only [hc, hs, hd, decide_true, Bool.and_self, if_true]
  rfl

end

end

/-! ## Timers -/

section
variable {s : State} {i : SlotNo} {e : Nat}

section
variable (he : s.slots[i].stallStart = some e)
include he

theorem stallTimeout_of_due (hs : s.slots[i].state = .stalled) (hle : e + Config.stallTime ≤ s.now) :
    stallTimeout i s = (s, [.endTransfer i (if s.power.state = .awake then .stall else .asleep)]) :=
  if_pos (by rw [hs, he]; simp [hle])

theorem stallTimeout_of_early (hlt : s.now < e + Config.stallTime) : stallTimeout i s = s.idle :=
  if_neg (by rw [he]; simp [hlt])

end

section
variable (he : s.slots[i].primedAt = some e)
include he

theorem primedTimeout_of_due (hs : s.slots[i].state = .primed) (hle : e + Config.primedTime ≤ s.now) :
    primedTimeout i s = (s, [.endTransfer i .unstarted]) := if_pos (by rw [hs, he]; simp [hle])

theorem primedTimeout_of_early (hlt : s.now < e + Config.primedTime) : primedTimeout i s = s.idle :=
  if_neg (by rw [he]; simp [hlt])

end

/-- Without its resume record an IDLE slot has no owner (R125, R140). -/
theorem Slot.tidy_noResume (x : Slot) : ({ x with resume := none } : Slot).tidy =
    { x with resume := none, owner := if x.state = .idle then none else x.owner } := by
  unfold Slot.tidy
  by_cases hs : x.state = .idle <;> simp [hs]

section
variable {r : Resume} (hr : s.slots[i].resume = some r)
include hr

theorem resumeExpiry_of_due (hd : s.power.state ≠ .deep) (hle : r.made + Config.resumeLife ≤ s.now) :
    resumeExpiry i s =
      (s.updSlot i fun x => { x with resume := none, owner := if x.state = .idle then none else x.owner },
       [.releasePlay r.xfer.obj, .endWork]) := by
  unfold resumeExpiry
  simp only [hr, ← Slot.tidy_noResume]
  exact if_pos (by simp [hd, hle])

theorem resumeExpiry_of_kept (h : s.power.state = .deep ∨ s.now < r.made + Config.resumeLife) :
    resumeExpiry i s = s.idle := by
  unfold resumeExpiry
  simp only [hr]
  refine if_neg ?_
  rcases h with h | h <;> simp [h]

end

end

/-! ## The statements -/

/-- Settles O43: what each action leaves, with the pending peak it puts in force. -/
theorem rateActionsDoWhatTheyName : Obligations.RateActionsDoWhatTheyName := by
  intro q
  refine ⟨⟨q.forcePeak_floor, rfl, rfl, q.forcePeak_pendingPeak, q.forcePeak_peak⟩,
    ⟨rfl, rfl, rfl, q.forcePeak_pendingPeak, q.forcePeak_peak⟩, ⟨rfl, rfl, rfl⟩, ⟨rfl, rfl, ?easePeak⟩,
    fun peak => ⟨fun hlt => ?below, fun hle => ?atLeast⟩⟩
  case easePeak =>
    unfold Play.easePeak
    cases q.p.pendingPeak <;> rfl
  case below =>
    rw [Play.retune_of_below hlt]
    exact ⟨rfl, rfl, rfl, rfl⟩
  case atLeast =>
    rw [Play.retune_of_atLeast hle]
    exact ⟨Play.liftPeak_pendingPeak _, Play.liftPeak_peak _⟩

/-- Settles O44: by the phase, which says where the rate moves. -/
theorem theRateUpdateStaysInRange : Obligations.TheRateUpdateStaysInRange := by
  intro q hrate hceiling htarget
  refine ⟨?low, ?high, fun h => ?rising, fun h => ?falling, fun hr hf => ?steady⟩
  case low => rcases q.rateUpdate_rate_cases with ⟨-, h⟩ | ⟨-, h⟩ | ⟨-, -, h⟩ <;> omega
  case high => rcases q.rateUpdate_rate_cases with ⟨-, h⟩ | ⟨-, h⟩ | ⟨-, -, h⟩ <;> omega
  case rising => rw [q.rateUpdate_rate, Play.moveRate_of_rising h]
  case falling => rw [q.rateUpdate_rate, Play.moveRate_of_falling h]
  case steady => rw [q.rateUpdate_rate, Play.moveRate_of_steady hr hf]

/-- Settles O40: by the slot it may have, by the claim its object grants, and by the state of the slot. -/
theorem playIsJudgedInOrder : Obligations.PlayIsJudgedInOrder := by
  refine ⟨fun s n sender => ⟨fun i hn => ⟨?other, fun ho =>
      ⟨State.playSlot_of_full hn ho, State.playSlot_of_room hn ho⟩⟩,
      fun hn i hi hlow => State.playSlot_of_any sender hn (State.anySlot_of_bare hi hlow), fun hn hbare => ⟨?oldest, ?busy⟩⟩,
    fun s id => ⟨State.claimRefusal_of_none, fun o ho => ⟨State.claimRefusal_of_opened ho, State.claimRefusal_of_retired ho,
      State.claimRefusal_of_complete ho⟩⟩, fun s t m h hb hk => ?request⟩
  case other =>
    rintro ⟨o, ho, hne⟩
    exact State.playSlot_of_otherOwner hn ho hne
  case oldest =>
    intro i r hs hr hold
    exact State.playSlot_of_any sender hn ((State.anySlot_of_noBare hbare).trans (State.oldestResume_of_oldest hs hr hold))
  case busy =>
    intro hnone
    exact State.playSlot_of_noneLeft sender hn ((State.anySlot_of_noBare hbare).trans (State.oldestResume_of_none hnone))
  case request =>
    intro u n id bad
    have hexec : exec (.play t) s = .next (State.finish (play m u)) := message_dispatched h hb (isKind_of_kind hk)
    refine ⟨fun hbad => next_of_noTasks hexec (play_of_bad u hbad),
      fun status hok hp => next_of_noTasks hexec (play_of_noSlot hok hp), fun i hok hp =>
      ⟨fun status hc => next_of_noTasks hexec (play_of_noClaim hok hp hc), fun o hc ho =>
        ⟨fun he => next_of_noTasks hexec (play_of_pastEnd hok hp hc ho he), fun he => ?placed⟩⟩⟩
    case placed =>
      intro v r owner tag
      rw [play_of_accepted hok hp hc ho he] at hexec
      refine ⟨fun hs => ?current, fun hs => ?next⟩
      case current =>
        obtain ⟨hcur, htag, hwindow⟩ := Slot.become_record { u.playHeld m i with resume := none } r u.now
        rw [State.playPlaced_of_idle hs, htag] at hexec
        obtain ⟨hresume, hnext, howner, hret, hqueue⟩ := Slot.become_kept { u.playHeld m i with resume := none } r u.now
        exact ⟨_, hexec, hcur, htag, hresume, hnext, howner, hret, hwindow, hqueue,
          fun hg => Slot.become_of_noGroup _ _ hg, fun hg => Slot.become_of_group _ _ hg⟩
      case next =>
        rw [State.playPlaced_of_busy hs] at hexec
        exact hexec

/-- Settles O41: by the slot, by the fields, and by the resume record that is there. -/
theorem resumeGoesOnWhereItStopped : Obligations.ResumeGoesOnWhereItStopped := by
  intro s t m h hb hk u
  have hexec : exec (.resume t) s = .next (State.finish (resume m u)) := message_dispatched h hb (isKind_of_kind hk)
  refine ⟨fun hn => next_of_noTasks hexec (resume_of_badRange hn), fun i hi =>
    ⟨fun hbare ho => next_of_noTasks hexec (resume_of_notAllowed hi hbare ho), fun ha =>
      ⟨fun hf => next_of_noTasks hexec (resume_of_refused hi ha hf),
       fun hf hs => next_of_noTasks hexec (resume_of_busy hi ha hf hs),
       fun hf ⟨hs, hr⟩ => next_of_noTasks hexec (resume_of_noRecord hi ha hf hs hr), fun r hf hs hr => ?goesOn⟩⟩⟩
  case goesOn =>
    intro next y
    obtain ⟨hstart, hlength⟩ := r.restart_range m.body
    exact ⟨hstart, hlength, hexec.trans (by rw [resume_of_record hi ha hf hs hr]; rfl)⟩

/-- Settles O42: by the row of the action, by the slot, and by the pacing that is there. -/
theorem rateActionsMoveThePacer : Obligations.RateActionsMoveThePacer := by
  intro s t m h hb hk hl u
  refine ⟨fun ha => ?badAction, fun row hrow ha => ?action⟩
  case badAction =>
    have hexec : exec (.jumpFloor t) s = .next (State.finish (rateAction Play.jumpFloor m u)) :=
      message_dispatched h hb (isJumpFloor_of_badAction hk ha)
    have hj := rateAction_judgesSlot Play.jumpFloor
    exact ⟨hj.badRange hexec, fun i hi => ⟨hj.notAllowed hexec hi, fun ho =>
      next_of_noTasks hexec (rateAction_of_badAction _ (State.ownSlot_of_owner hi ho) ha)⟩⟩
  case action =>
    have hexec := exec_rateRow h hb hk hl hrow ha
    have hj := rateAction_judgesSlot row.2.2
    have hle : byteAt m.body 1 ≤ 4 := ha ▸ rateRows_action_le hrow
    refine ⟨hj.badRange hexec, fun i hi => ⟨hj.notAllowed hexec hi, fun ho => ?own⟩⟩
    have hown := State.ownSlot_of_owner hi ho
    exact ⟨fun hr => next_of_noTasks hexec (rateAction_of_notRunning _ hown hle hr), fun q hr hq =>
      ⟨fun ht => next_of_noTasks hexec (rateAction_of_taperStop _ hown hle hr hq ht),
       fun ht => next_of_noTasks hexec (rateAction_of_running _ hown hle hr hq ht)⟩⟩

/-- Refutes O45: its last clause does not name the kind of the message, so it speaks also of a STOP, of which the row TAPER_STOP
makes nothing. With the kind the clause holds (`exec_taperStop_own`), as do the others (`slotControl_refused`, `exec_retarget_own`,
`exec_dropNext_own`, `exec_stop_own`). -/
theorem not_slotControlsActOnTheirSlot : ¬Obligations.SlotControlsActOnTheirSlot := by
  intro h
  obtain ⟨hsettled, hbrings⟩ := stopBox_premises
  obtain ⟨-, hslot⟩ := h stopBox 0 stopMsg hsettled hbrings
  obtain ⟨-, hown⟩ := hslot 0 stopBox_slot.named
  obtain ⟨-, -, -, -, hclause⟩ := hown stopBox_slot.owner
  obtain ⟨-, habove⟩ := hclause stopPlay stopXfer stopBox_slot.runs stopBox_slot.play stopBox_slot.next
  have hpassed : exec (.taperStop 0) stopBox = .next (stopBox.atTime 0) := message_passedBy hsettled hbrings.head (by decide)
  have hsame := Host.Outcome.next.inj (hpassed.symm.trans (habove (by decide)))
  exact absurd (congrArg (fun u : State => u.link.control.length) hsame) (by decide +kernel)

/-- Settles O46: the new length and the fresh tracker leave the bytes sent as they are. -/
theorem retargetMovesTheEnd : Obligations.RetargetMovesTheEnd := by
  intro s t m i c h hb hk hi u l ho hr hc hl hlt v w
  have hexec : exec (.retarget t) s = .next (State.finish (retarget m u)) := message_dispatched h hb (isKind_of_kind hk)
  have hslot : v.slots[i] = u.slots[i].retargeted l := u.slots_updSlot_same i _
  refine ⟨hexec.trans ?_, ?_, ?_⟩
  · rw [retarget_of_ahead (State.ownSlot_of_owner hi ho) hr hl hc hlt]
    rfl
  · rw [hslot]
    exact Slot.resetTracker_tracker _
  · rw [hslot]
    exact Slot.resetTracker_sent _

/-- Settles O50: each interval by whether it is due, then by the taper stop or by the next segment. -/
theorem intervalsPaceTheirSlot : Obligations.IntervalsPaceTheirSlot := by
  intro s t i h x
  refine ⟨fun q e hs hq he hle => ?running, fun c e hs hc he hle => ?stalled, fun e he hlt => ?undue⟩
  case running =>
    intro r v
    have hexec : exec (.pacingInterval t i) s = .next (State.finish ((s.atTime t).pace i)) :=
      event_finish h (pacingInterval_of_due (s := s.atTime t) hs (h.due_of_le he hle))
    exact ⟨fun ht hf => hexec.trans (by rw [State.pace_of_tapered (s := s.atTime t) hq ht hf]; rfl),
      fun hgo => hexec.trans (by rw [State.pace_of_going (s := s.atTime t) hq hgo]; rfl)⟩
  case stalled =>
    intro g v
    have hnext := stalledInterval_of_due (s := s.atTime t) hs hc (h.due_of_le he hle)
    refine ⟨fun hlost => event_finish h (hnext.trans (if_pos hlost)), fun hlost hready => ?waits, fun hlost hready => ?goes⟩
    case waits => exact event_done h (hnext.trans ((if_neg (ne_true_of_eq_false hlost)).trans (if_neg (ne_true_of_eq_false hready))))
    case goes => exact event_finish h (hnext.trans ((if_neg (ne_true_of_eq_false hlost)).trans (if_pos hready)))
  case undue =>
    have hundue : ¬(s.atTime t).due (s.atTime t).slots[i].interval = true := h.not_due (.inr ⟨e, he, hlt⟩)
    exact ⟨event_done h (pacingInterval_of_not_due hundue), event_done h (stalledInterval_of_not_due hundue)⟩

/-- Settles O51: each timer at its time and before it. -/
theorem slotTimersEndWhatTheyTime : Obligations.SlotTimersEndWhatTheyTime := by
  intro s t i h x
  refine ⟨fun e hs he => ⟨fun hle => ?stalled, fun hlt => ?stalling⟩, fun e hs he => ⟨fun hle => ?primed, fun hlt => ?priming⟩,
    fun r hr => ⟨fun hd hle => ?expired, fun hkept => ?kept⟩⟩
  case stalled => exact event_finish h (stallTimeout_of_due (s := s.atTime t) he hs (h.atTime_now.symm ▸ hle))
  case stalling => exact event_done h (stallTimeout_of_early (s := s.atTime t) he (h.atTime_now.symm ▸ hlt))
  case primed => exact event_finish h (primedTimeout_of_due (s := s.atTime t) he hs (h.atTime_now.symm ▸ hle))
  case priming => exact event_done h (primedTimeout_of_early (s := s.atTime t) he (h.atTime_now.symm ▸ hlt))
  case expired => exact event_finish h (resumeExpiry_of_due (s := s.atTime t) hr hd (h.atTime_now.symm ▸ hle))
  case kept => exact event_done h (resumeExpiry_of_kept (s := s.atTime t) hr (h.atTime_now.symm ▸ hkept))

end Sys2Proof.Machine
end

section
/-! SUPPORT and PROOFS. The end of a transfer, groups and viewer reports (Chapters 8 and 9): what a transfer's end leaves of its
slot, what each group request makes of its group, which report a slot takes and how its tracker judges it, and the statements about
them. -/

namespace Sys2Proof.Machine

/-! ## One slot's record, and messages queued -/

theorem State.slots_updSlot_of_ne {s : State} {i j : SlotNo} (f : Slot → Slot) (h : j ≠ i) :
    (s.updSlot i f).slots[j] = s.slots[j] :=
  Vector.getElem_set_ne i.isLt j.isLt fun he => h (Fin.ext he.symm)

/-- Two changes of a slot are one. -/
theorem State.updSlot_updSlot (s : State) (i : SlotNo) (f g : Slot → Slot) :
    (s.updSlot i f).updSlot i g = s.updSlot i fun x => g (f x) := by
  have hslot : g (s.updSlot i f).slots[i] = g (f s.slots[i]) := congrArg g (s.slots_updSlot_same i f)
  rw [State.updSlot, hslot]
  simp [State.updSlot]

/-- What no message queued changes, a list of messages queued does not change. -/
theorem State.sends_keep {α : Type} {part : State → α} (hpart : ∀ s m, part (s.send m) = part s) (ms : List OutMsg)
    (s : State) : part (ms.foldl State.send s) = part s := by
  induction ms generalizing s with
  | nil => rfl
  | cons m ms ih => exact (ih (s.send m)).trans (hpart s m)

/-! ## The end of a transfer -/

theorem endTransfer_of_idle {s : State} {i : SlotNo} (reason : EndReason) (hs : s.slots[i].state = .idle) :
    endTransfer i reason s = s.idle := if_pos hs

/-- Freeing every position empties the window and withdraws its waiting fills (R84, R131). -/
theorem State.freePositions_all (s : State) (i : SlotNo) : s.freePositions i (fun _ => true) =
    ((s.updSlot i fun x => { x with window := [] }).withdrawFills i s.slots[i].window,
     s.slots[i].window.flatMap WinPos.release) := by
  simp [State.freePositions]

/-- A slot with its timers stopped and its window freed (R138 steps 1 and 2). -/
def Slot.stopped (x : Slot) : Slot := { x with interval := none, primedAt := none, window := [] }

/-- A transfer's end stops its timers, frees its window and leaves the rest to its tail (R138 steps 1 and 2). -/
theorem endTransfer_of_busy {s : State} {i : SlotNo} (reason : EndReason) (hs : s.slots[i].state ≠ .idle) :
    endTransfer i reason s =
      ((s.updSlot i Slot.stopped).withdrawFills i s.slots[i].window,
       s.slots[i].window.flatMap WinPos.release ++ [.endTail i reason]) := by
  have hslot := s.slots_updSlot_same i fun x => { x with interval := none, primedAt := none }
  unfold endTransfer
  rw [if_neg hs, State.freePositions_all, hslot, State.updSlot_updSlot]
  rfl

/-- The reasons after which the next record is promoted (R138 step 3). -/
theorem EndReason.promotes_iff {reason : EndReason} :
    reason.promotes = true ↔ reason = .done ∨ reason = .retarget ∨ reason = .lost := by
  cases reason <;> simp [EndReason.promotes]

/-- The next outcome of an ENDED, with the reasons that promote written out (R138 step 4). -/
theorem Slot.nextOutcome_eq (x : Slot) (c : Current) (reason : EndReason) : x.nextOutcome c reason =
    if x.next = none then (if c.nextDropped then 2 else 0)
    else if reason = .done ∨ reason = .retarget ∨ reason = .lost then 1 else 2 := by
  unfold Slot.nextOutcome
  cases x.next
  case none => rfl
  case some r => simp [EndReason.promotes_iff]

/-- The claims that go, with the reasons that promote written out (R138 steps 3 and 5). -/
theorem Slot.releases_eq (x : Slot) (c : Current) (reason : EndReason) : x.releases c reason =
    (if reason = .done ∨ reason = .retarget ∨ reason = .lost then [] else x.next.toList.map (·.obj)) ++
      (if x.remaining c reason = 0 then [c.xfer.obj] else x.resume.toList.map fun r => r.xfer.obj) := by
  simp only [Slot.releases, EndReason.promotes_iff]

theorem Slot.tidy_eq (x : Slot) :
    x.tidy = { x with owner := if x.state = .idle ∧ x.resume = none then none else x.owner } := by
  unfold Slot.tidy
  by_cases h : x.state = .idle ∧ x.resume = none <;> simp [h]

section
variable (x : Slot) (c : Current) (reason : EndReason) (now : Nat)

/-- The slot once its transfer has ended: with the next record promoted, or tidied (R138 step 6, R139). -/
def Slot.afterEnd : Slot :=
  match if reason.promotes then x.next else none with
  | some r => (x.ended c reason now).become r now
  | none => (x.ended c reason now).tidy

/-- What is kept of an ended transfer does not depend on what follows it (R138, R140). -/
theorem Slot.afterEnd_kept : (x.afterEnd c reason now).resume = (x.ended c reason now).resume ∧
    (x.afterEnd c reason now).sendQueue = x.sendQueue := by
  unfold Slot.afterEnd
  split
  next r _ =>
    obtain ⟨hresume, -, -, -, hqueue⟩ := (x.ended c reason now).become_kept r now
    exact ⟨hresume, hqueue⟩
  next => exact Slot.tidy_eq _ ▸ ⟨rfl, rfl⟩

section
variable {x c reason now}

theorem Slot.afterEnd_of_promoted {r : Transfer} (hp : reason.promotes = true) (hn : x.next = some r) :
    x.afterEnd c reason now = (x.ended c reason now).become r now := by
  unfold Slot.afterEnd
  rw [if_pos hp, hn]

theorem Slot.afterEnd_of_notPromoted (h : ¬reason.promotes = true ∨ x.next = none) :
    x.afterEnd c reason now = (x.ended c reason now).tidy := by
  have hnone : (if reason.promotes then x.next else none) = none := by
    rcases h with h | h
    · exact if_neg h
    · rw [h, ite_self]
  unfold Slot.afterEnd
  rw [hnone]

/-- Nothing left to send leaves the resume record that was there (R138 step 5). -/
theorem Slot.afterEnd_resume_of_none (h : x.remaining c reason = 0) : (x.afterEnd c reason now).resume = x.resume :=
  (x.afterEnd_kept c reason now).1.trans (if_pos h)

/-- What is left to send is kept as resume record (R140). -/
theorem Slot.afterEnd_resume_of_left (h : x.remaining c reason ≠ 0) :
    (x.afterEnd c reason now).resume = some (x.makeResume c now) :=
  (x.afterEnd_kept c reason now).1.trans (if_neg h)

/-- A promoted record becomes current under the same owner, and no next record is left (R139). -/
theorem Slot.afterEnd_promotes {r : Transfer} (hp : reason.promotes = true) (hn : x.next = some r) :
    let y := x.afterEnd c reason now
    y.cur = some { xfer := r, tag := nextSlotTag x.tagCounter, nextDropped := false } ∧ y.next = none ∧ y.owner = x.owner ∧
      y.state = if r.group = 0 then .running else .primed := by
  intro y
  have hy : y = (x.ended c reason now).become r now := Slot.afterEnd_of_promoted hp hn
  obtain ⟨hcur, -, -⟩ := (x.ended c reason now).become_record r now
  obtain ⟨-, hnext, howner, -, -⟩ := (x.ended c reason now).become_kept r now
  rw [hy]
  refine ⟨hcur, hnext, howner, ?_⟩
  by_cases hg : r.group = 0
  · rw [if_pos hg]
    obtain ⟨hstate, -, -⟩ := (x.ended c reason now).become_of_noGroup now hg
    exact hstate
  · rw [if_neg hg]
    obtain ⟨hstate, -⟩ := (x.ended c reason now).become_of_group now hg
    exact hstate

/-- With no record promoted the slot is IDLE, and its owner stays for a resume record alone (R125, R138 step 6). -/
theorem Slot.afterEnd_idles (h : ¬reason.promotes = true ∨ x.next = none) :
    let y := x.afterEnd c reason now
    y.state = .idle ∧ y.cur = none ∧ y.next = none ∧ y.pacer = none ∧ y.tracker = none ∧ y.window = [] ∧
      y.owner = if y.resume = none then none else x.owner := by
  intro y
  have hy : y = (x.ended c reason now).tidy := Slot.afterEnd_of_notPromoted h
  rw [hy, Slot.tidy_eq]
  exact ⟨rfl, rfl, rfl, rfl, rfl, rfl, if_congr (and_iff_right rfl) rfl rfl⟩

end

end

section
variable {s : State} {i : SlotNo} {c : Current} (hc : s.slots[i].cur = some c) (reason : EndReason)
include hc

/-- The ENDED is queued, then the slot is left as R138 gives, and the claims of the records that go are released. -/
theorem endTail_of_current : endTail i reason s =
    (((s.endedMessage i s.slots[i] c reason).foldl State.send s).updSlot i fun _ => s.slots[i].afterEnd c reason s.now,
     releaseTasks (s.slots[i].releases c reason) ++ [.fill i]) := by
  unfold endTail
  simp only [hc, State.sends_keep State.send_now]
  rfl

theorem endTail_slot : (endTail i reason s).1.slots[i] = s.slots[i].afterEnd c reason s.now := by
  rw [endTail_of_current hc]
  exact State.slots_updSlot_same _ i _

theorem endTail_otherSlot {j : SlotNo} (hj : j ≠ i) : (endTail i reason s).1.slots[j] = s.slots[j] := by
  rw [endTail_of_current hc]
  refine (State.slots_updSlot_of_ne _ hj).trans ?_
  rw [State.sends_keep State.send_slots]

theorem endTail_tables : (endTail i reason s).1.tables = s.tables := by
  rw [endTail_of_current hc]
  exact State.sends_keep State.send_tables _ s

/-- The ENDED goes to the slot's return address (R9, R138 step 4). -/
theorem endTail_link {a : Addr} (hr : s.slots[i].ret = some a) : (endTail i reason s).1.link =
    (s.send (.hbx a kindEnded (s.ownerTag s.slots[i]) 0 0
      (be 1 i ++ be 2 c.tag ++ be 1 reason.code ++ be 8 s.slots[i].sent ++ be 8 (s.slots[i].remaining c reason) ++
        be 1 (s.slots[i].nextOutcome c reason)))).link := by
  rw [endTail_of_current hc]
  unfold State.endedMessage State.slotMessage
  rw [hr]
  rfl

end

/-! ## Groups -/

section
variable {m : Msg}

theorem groupOf_of_group (h : 1 ≤ byteAt m.body 0 ∧ byteAt m.body 0 ≤ 15) : groupOf m = some (byteAt m.body 0) :=
  if_pos (by simpa using h)

theorem groupOf_of_outOfRange (h : byteAt m.body 0 = 0 ∨ 15 < byteAt m.body 0) : groupOf m = none :=
  if_neg (by simp only [Bool.and_eq_true, decide_eq_true_eq]; omega)

variable (s : State)

section
variable (hg : 1 ≤ byteAt m.body 0 ∧ byteAt m.body 0 ≤ 15)
include hg

theorem groupGo_of_group : groupGo m s = (s.goGroup (byteAt m.body 0), []) := by
  unfold groupGo
  rw [groupOf_of_group hg]

theorem groupHalt_of_group : groupHalt m s = (s, s.haltTasks (byteAt m.body 0)) := by
  unfold groupHalt
  rw [groupOf_of_group hg]

/-- A GROUP-CALL counts the slots it starts (R160). -/
theorem groupCall_of_group : groupCall m s =
    (((s.goGroup (byteAt m.body 0)).send (s.groupBroadcast .groupGo (byteAt m.body 0))).reply m stOk
      (be 1 (s.slots.toList.countP (Slot.primedIn (byteAt m.body 0)))), []) := by
  unfold groupCall
  rw [groupOf_of_group hg]

/-- A HALT-CALL ends its slots before it sends its broadcast and its REPLY (R162). -/
theorem haltCall_of_group : haltCall m s =
    (s, s.haltTasks (byteAt m.body 0) ++ [.send (s.groupBroadcast .groupHalt (byteAt m.body 0)),
      .send (s.replyTo m stOk (be 1 (s.haltSlots (byteAt m.body 0)).length))]) := by
  unfold haltCall
  rw [groupOf_of_group hg]

end

section
variable (hg : byteAt m.body 0 = 0 ∨ 15 < byteAt m.body 0)
include hg

theorem groupGo_of_outOfRange : groupGo m s = s.idle := by
  unfold groupGo
  rw [groupOf_of_outOfRange hg]

theorem groupHalt_of_outOfRange : groupHalt m s = s.idle := by
  unfold groupHalt
  rw [groupOf_of_outOfRange hg]

theorem groupCall_of_outOfRange : groupCall m s = s.refuse m stBadRange := by
  unfold groupCall
  rw [groupOf_of_outOfRange hg]

theorem haltCall_of_outOfRange : haltCall m s = s.refuse m stBadRange := by
  unfold haltCall
  rw [groupOf_of_outOfRange hg]

end

end

/-- A start event sets a slot with a current record RUNNING, with a fresh tracker and its first interval (R129). -/
theorem Slot.start_of_current {x : Slot} {c : Current} (now : Nat) (hc : x.cur = some c) :
    (x.start now).state = .running ∧ (x.start now).tracker = some Tracker.fresh ∧
      (x.start now).interval = some (now + Config.intervalTime) := by
  unfold Slot.start
  rw [hc]
  exact ⟨rfl, rfl, rfl⟩

theorem Slot.current_of_primedIn {x : Slot} {g : Nat} (h : x.primedIn g = true) : ∃ c, x.cur = some c := by
  cases hc : x.cur with
  | none => simp [Slot.primedIn, hc] at h
  | some c => exact ⟨c, rfl⟩

/-- Each slot is started or left by its own record alone (R159). -/
theorem State.goGroup_slot (s : State) (g : Nat) (i : SlotNo) :
    (s.goGroup g).slots[i] = if s.slots[i].primedIn g then s.slots[i].start s.now else s.slots[i] :=
  Vector.getElem_map _ i.isLt

/-! ## Viewer reports -/

section
variable (k : Tracker) (n : Nat)

/-- In band the tracker comes to STEADY at k_lock reports, and else stays (R153). -/
theorem Tracker.judge_inBand (kUnlock : Nat) :
    k.judge true n kUnlock = if n ≤ k.inBand then .steady else k.state := by
  unfold Tracker.judge
  cases k.state
  case opened => rfl
  case steady => exact (ite_self _).symm
  case strained => rfl

/-- Out of band the tracker comes to STRAINED at k_unlock reports, and else stays (R153). -/
theorem Tracker.judge_outOfBand (kLock : Nat) :
    k.judge false kLock n = if n ≤ k.outBand then .strained else k.state := by
  unfold Tracker.judge
  cases k.state
  case opened => rfl
  case steady => rfl
  case strained => exact (ite_self _).symm

theorem Tracker.count_state (inBand : Bool) : (k.count inBand).state = k.state := by
  cases inBand <;> rfl

end

/-- A report is taken for a slot of its sender that runs the transfer of the report's tag (R151). -/
theorem State.reportTaken_iff {s : State} {m : Msg} {i : SlotNo} : s.reportTaken m i = true ↔
    s.slots[i].owner = some (s.sender m) ∧ s.slots[i].runs = true ∧
      ∃ c, s.slots[i].cur = some c ∧ c.tag = field m.body 1 2 := by
  simp [State.reportTaken, Option.any_eq_true, and_assoc]

section
variable {m : Msg} {s : State}

theorem viewReport_of_noSlot (h : 7 < byteAt m.body 0) : viewReport m s = s.idle := by
  unfold viewReport
  rw [slotOf_of_gt h]

variable {i : SlotNo} (hi : byteAt m.body 0 = i.val)
include hi

theorem viewReport_of_taken (h : s.reportTaken m i = true) : viewReport m s =
    (s.updSlot i fun x => x.report (field m.body 3 8) s.loader.image.kLock s.loader.image.kUnlock, []) := by
  unfold viewReport
  rw [slotOf_of_slot hi]
  exact if_pos h

theorem viewReport_of_notTaken (h : ¬s.reportTaken m i = true) : viewReport m s = s.idle := by
  unfold viewReport
  rw [slotOf_of_slot hi]
  exact if_neg h

end

/-! ## The statements -/

/-- Settles O47: the end of a transfer by its two parts, then each stop by its slots. -/
theorem stopsEndTransfersInSlotOrder : Obligations.StopsEndTransfersInSlotOrder := by
  refine ⟨fun s i reason => ⟨endTransfer_of_idle reason, fun hs => ?ends⟩, fun s i reason c hc => ?tail,
    fun s t m h hb => ⟨fun hk => message_dispatched h hb (isKind_of_kind hk), fun hk => ?groupHalt, fun hk => ?haltCall⟩⟩
  case ends =>
    intro w
    have hw : w = _ := endTransfer_of_busy reason hs
    rw [hw]
    exact ⟨s.slots_updSlot_same i Slot.stopped, rfl, rfl⟩
  case tail =>
    intro x w y promotes left outcome
    have hy : y = x.afterEnd c reason s.now := endTail_slot hc reason
    obtain ⟨-, hqueue⟩ := x.afterEnd_kept c reason s.now
    rw [hy]
    refine ⟨fun a hr => ?ended, Slot.afterEnd_resume_of_none, Slot.afterEnd_resume_of_left,
      fun r hp hn => Slot.afterEnd_promotes (EndReason.promotes_iff.mpr hp) hn, fun hn => Slot.afterEnd_idles ?idles, hqueue,
      fun j hj => endTail_otherSlot hc reason hj, endTail_tables hc reason, ?claims⟩
    case ended => exact (endTail_link hc reason hr).trans (by rw [Slot.nextOutcome_eq]; rfl)
    case idles => exact hn.imp_left fun hp => EndReason.promotes_iff.not.mpr hp
    case claims =>
      rw [show w = _ from endTail_of_current hc reason, Slot.releases_eq]
      rfl
  case groupHalt =>
    have hexec : exec (.groupHalt t) s = .next (State.finish (groupHalt m (s.met t m))) :=
      message_dispatched h hb (isKind_of_kind hk)
    exact ⟨fun hg => hexec.trans (by rw [groupHalt_of_group _ hg]; rfl),
      fun hg => next_of_noTasks hexec (groupHalt_of_outOfRange _ hg)⟩
  case haltCall =>
    have hexec : exec (.haltCall t) s = .next (State.finish (haltCall m (s.met t m))) :=
      message_dispatched h hb (isKind_of_kind hk)
    exact ⟨fun hg => hexec.trans (by rw [haltCall_of_group _ hg]; rfl),
      fun hg => next_of_noTasks hexec (haltCall_of_outOfRange _ hg)⟩

/-- Settles O48: each request by its group, each slot by whether it is PRIMED in the group. -/
theorem groupsStartTogether : Obligations.GroupsStartTogether := by
  intro s t m h hb u g
  refine ⟨fun hk => ?groupGo, fun hk => ?groupCall, fun i => ⟨fun hp => ?starts, fun hp => ?stays⟩⟩
  case groupGo =>
    have hexec : exec (.groupGo t) s = .next (State.finish (groupGo m u)) := message_dispatched h hb (isKind_of_kind hk)
    exact ⟨fun hg => next_of_noTasks hexec (groupGo_of_group _ hg),
      fun hg => next_of_noTasks hexec (groupGo_of_outOfRange _ hg)⟩
  case groupCall =>
    have hexec : exec (.groupCall t) s = .next (State.finish (groupCall m u)) := message_dispatched h hb (isKind_of_kind hk)
    exact ⟨fun hg => next_of_noTasks hexec (groupCall_of_group _ hg),
      fun hg => next_of_noTasks hexec (groupCall_of_outOfRange _ hg)⟩
  case starts =>
    obtain ⟨c, hc⟩ := Slot.current_of_primedIn hp
    rw [State.goGroup_slot, if_pos hp]
    exact Slot.start_of_current u.now hc
  case stays => rw [State.goGroup_slot, if_neg (ne_true_of_eq_false hp)]

/-- Settles O49: the tracker by whether the report is in band, the message by whether its slot takes it. -/
theorem reportsMoveOnlyTheirTracker : Obligations.ReportsMoveOnlyTheirTracker := by
  refine ⟨fun k inBand kLock kUnlock => ?tracker, fun s t m h hb hk => ?message⟩
  case tracker =>
    intro c
    have hstate : c.state = k.state := k.count_state inBand
    refine ⟨?countIn, ?countOut, hstate, ?locks, ?staysIn, ?unlocks, ?staysOut⟩
    case countIn | countOut =>
      rintro rfl
      exact ⟨rfl, rfl⟩
    case locks =>
      rintro rfl hle
      rw [Tracker.judge_inBand, if_pos hle]
    case staysIn =>
      rintro rfl hlt
      rw [Tracker.judge_inBand, if_neg (Nat.not_le.mpr hlt), hstate]
    case unlocks =>
      rintro rfl hle
      rw [Tracker.judge_outOfBand, if_pos hle]
    case staysOut =>
      rintro rfl hlt
      rw [Tracker.judge_outOfBand, if_neg (Nat.not_le.mpr hlt), hstate]
  case message =>
    intro u
    have hexec : exec (.viewReport t) s = .next (State.finish (viewReport m u)) := message_dispatched h hb (isKind_of_kind hk)
    refine ⟨fun hn => next_of_noTasks hexec (viewReport_of_noSlot hn), fun i hi => ⟨fun ht => ?taken, fun ht => ?ignored⟩⟩
    case taken => exact next_of_noTasks hexec (viewReport_of_taken hi (State.reportTaken_iff.mpr ht))
    case ignored => exact next_of_noTasks hexec (viewReport_of_notTaken hi (State.reportTaken_iff.not.mpr ht))

end Sys2Proof.Machine
end

section
/-! SUPPORT and PROOFS. Box power and waking (Chapter 10): what a WAKE, the power timers, the entry to DEEP and the exit from it
each do, said once by their cases, and the two statements about them. -/

namespace Sys2Proof.Machine

/-! ## A WAKE -/

/-- What the task keeps of a WAKE, its sender and its number, is all that its REPLY needs (R8, R172). -/
theorem answerWake_eq_reply {m : Msg} (hk : m.kind = Kind.wake.code) (s : State) :
    answerWake m.src m.seq s = (s.reply m stOk [byteOf s.power.state.code], []) := by
  rw [State.reply, State.replyTo, hk]
  rfl

theorem finish_answerWake {m : Msg} (hk : m.kind = Kind.wake.code) (s : State) :
    State.finish (s, [.answerWake m.src m.seq]) = s.reply m stOk [byteOf s.power.state.code] :=
  (finish_one rfl).trans (congrArg Prod.fst (answerWake_eq_reply hk s))

section
variable {s : State} (m : Msg)

/-- R172 in QUIET. -/
theorem wake_of_quiet (hp : s.power.state = .quiet) : wake m s = (s, [.orderSpinUp, .answerWake m.src m.seq]) := by
  rw [wake, hp]

/-- R172 in AWAKE. -/
theorem wake_of_awake (hp : s.power.state = .awake) : wake m s = (s.restartDiskIdle, [.answerWake m.src m.seq]) := by
  rw [wake, hp]

/-- R172 in WAKING. -/
theorem wake_of_waking (hp : s.power.state = .waking) : wake m s = (s, [.answerWake m.src m.seq]) := by
  rw [wake, hp]

end

/-! ## The power timers -/

section
variable {s : State}

/-- The box goes to QUIET as its disk idle timer expires (R167). -/
def State.quieted (s : State) : State := ({ s with power.diskIdle := none } : State).enterPower .quiet

/-- What an expired disk idle timer asks of the disks, and the DEEP check behind it (R167, R174). -/
def State.spinDowns (s : State) : List Task :=
  ((s.liveBays.filter fun b => s.bays[b].substate ≠ some .standby).map fun b => Task.offer b .power .spinDown) ++ [.deepCheck]

theorem diskIdleExpiry_of_due (hp : s.power.state = .awake) (hd : s.due s.power.diskIdle = true) :
    diskIdleExpiry s = (s.quieted, s.quieted.spinDowns) := by
  rw [diskIdleExpiry, if_pos (by simp [hp, hd])]
  rfl

theorem diskIdleExpiry_of_kept (h : ¬s.due s.power.diskIdle = true ∨ s.power.state ≠ .awake) :
    diskIdleExpiry s = (s, []) := by
  rw [diskIdleExpiry, if_neg (by simpa [or_comm, imp_iff_not_or] using h)]
  rfl

theorem State.qualifierExpiry_of_due (hp : s.power.state = .quiet) (hd : s.due s.power.window = true) :
    s.qualifierExpiry = s.clearQualifier := by
  rw [State.qualifierExpiry, if_pos (by simp [hp, hd])]

theorem State.qualifierExpiry_of_kept (h : ¬s.due s.power.window = true ∨ s.power.state ≠ .quiet) :
    s.qualifierExpiry = s := by
  rw [State.qualifierExpiry, if_neg (by simpa [or_comm, imp_iff_not_or] using h)]

theorem deepIdleExpiry_of_due (hd : s.due s.power.deepIdle = true) :
    deepIdleExpiry s = ({ s with power.deepIdle := none, power.deepDue := true }, [.deepCheck]) := if_pos hd

theorem deepIdleExpiry_of_not_due (hd : ¬s.due s.power.deepIdle = true) : deepIdleExpiry s = (s, []) := if_neg hd

/-- A timer that acts in one power state only does not act while it has not expired, nor in another power state. -/
theorem State.Settled.kept {t : Nat} {o : Option Nat} {p : PowerState} (h : s.Settled t)
    (ho : o = none ∨ (∃ e, o = some e ∧ t < e) ∨ s.power.state ≠ p) :
    ¬(s.atTime t).due o = true ∨ (s.atTime t).power.state ≠ p :=
  (or_assoc.mpr ho).imp_left h.not_due

end

/-! ## The parity reserve given up -/

section
variable {s : State}

theorem State.giveUpReserve_of_none (hr : s.buf.reserve = none) : s.giveUpReserve = s := by
  rw [State.giveUpReserve, hr]

theorem State.giveUpReserve_of_some {pages : List Nat} (hr : s.buf.reserve = some pages) :
    s.giveUpReserve = { s.freeUp pages with buf.reserve := none } := by
  rw [State.giveUpReserve, hr]

/-- Giving up the reserve changes the buffers and nothing else (R78). -/
theorem State.giveUpReserve_buf (s : State) : ∃ b, s.giveUpReserve = { s with buf := b } := by
  cases hr : s.buf.reserve with
  | none => exact ⟨s.buf, State.giveUpReserve_of_none hr⟩
  | some pages => exact ⟨_, State.giveUpReserve_of_some hr⟩

@[simp] theorem State.giveUpReserve_reserve (s : State) : s.giveUpReserve.buf.reserve = none := by
  cases hr : s.buf.reserve with
  | none => rw [State.giveUpReserve_of_none hr, hr]
  | some pages => rw [State.giveUpReserve_of_some hr]

@[simp] theorem State.giveUpReserve_link (s : State) : s.giveUpReserve.link = s.link := by obtain ⟨b, h⟩ := s.giveUpReserve_buf; rw [h]
@[simp] theorem State.giveUpReserve_index (s : State) : s.giveUpReserve.index = s.index := by obtain ⟨b, h⟩ := s.giveUpReserve_buf; rw [h]
@[simp] theorem State.giveUpReserve_tables (s : State) : s.giveUpReserve.tables = s.tables := by obtain ⟨b, h⟩ := s.giveUpReserve_buf; rw [h]
@[simp] theorem State.giveUpReserve_ingest (s : State) : s.giveUpReserve.ingest = s.ingest := by obtain ⟨b, h⟩ := s.giveUpReserve_buf; rw [h]
@[simp] theorem State.giveUpReserve_store (s : State) : s.giveUpReserve.store = s.store := by obtain ⟨b, h⟩ := s.giveUpReserve_buf; rw [h]
@[simp] theorem State.giveUpReserve_slots (s : State) : s.giveUpReserve.slots = s.slots := by obtain ⟨b, h⟩ := s.giveUpReserve_buf; rw [h]
@[simp] theorem State.giveUpReserve_power (s : State) : s.giveUpReserve.power = s.power := by obtain ⟨b, h⟩ := s.giveUpReserve_buf; rw [h]
@[simp] theorem State.giveUpReserve_journal (s : State) : s.giveUpReserve.journal = s.journal := by obtain ⟨b, h⟩ := s.giveUpReserve_buf; rw [h]

end

/-! ## Entry to DEEP -/

/-- DEEP announced, with the pairing window closed and the qualifier cleared, before the reserve and the ports are seen to (R175). -/
def State.deepAnnounced (s : State) : State := (s.enterPower .deep).closeWindow.clearQualifier

theorem enterDeep_eq (s : State) : enterDeep s =
    ({ s.deepAnnounced.giveUpReserve with
        bays := s.bays.map Bay.deep, power.deepDue := false, power.deepIdle := none, power.deepSince := some s.now }, []) := by
  have hbays : s.deepAnnounced.bays = s.bays := State.enterPower_bays s .deep
  have hnow : s.deepAnnounced.now = s.now := State.enterPower_now s .deep
  rw [← hbays, ← hnow]
  rfl

@[simp] theorem enterDeep_power (s : State) : (enterDeep s).1.power =
    { s.power with
        state := .deep, count := 0, window := none, deepDue := false, deepIdle := none, deepSince := some s.now } := by
  simp [enterDeep_eq, State.deepAnnounced, State.clearQualifier]

/-- The announce timer stops and the pairing window closes as the ANNOUNCE of DEEP is queued (R175). -/
@[simp] theorem enterDeep_link (s : State) : (enterDeep s).1.link =
    { ({ s with power.state := .deep } : State).announce.link with announce := none, window := none, asks := [] } := by
  simp only [enterDeep_eq, State.giveUpReserve_link]
  rfl

/-- The entry to DEEP leaves what the box holds (R175). -/
theorem enterDeep_keeps (s : State) :
    let u := (enterDeep s).1
    u.slots = s.slots ∧ u.tables = s.tables ∧ u.index = s.index ∧ u.ingest = s.ingest ∧ u.store = s.store ∧
      u.journal = s.journal := by
  simp [enterDeep_eq, State.deepAnnounced]

@[simp] theorem enterDeep_reserve (s : State) : (enterDeep s).1.buf.reserve = none := by
  simp [enterDeep_eq]

theorem Bay.deep_of_member {x : Bay} (hx : x.state = .member) : x.deep = x := if_pos hx

/-- The port of a member's bay goes into DEEP as it stands (R124). -/
theorem enterDeep_memberBay {s : State} {b : BayNo} (hb : s.bays[b].state = .member) : (enterDeep s).1.bays[b] = s.bays[b] := by
  have hmap : (s.bays.map Bay.deep)[b] = s.bays[b].deep := Vector.getElem_map ..
  rw [enterDeep_eq]
  exact hmap.trans (Bay.deep_of_member hb)

/-- Without a reserve the pool stays as it is (R78). -/
theorem enterDeep_pool_of_none {s : State} (hr : s.buf.reserve = none) : (enterDeep s).1.buf.pool = s.buf.pool := by
  have hbuf : s.deepAnnounced.buf = s.buf := State.enterPower_buf s .deep
  rw [enterDeep_eq, State.giveUpReserve_of_none (hbuf ▸ hr), hbuf]

/-- The reserve's pages, and no others, become FREE (R78, R175). -/
theorem enterDeep_pool_of_some {s : State} {pages : List Nat} (hr : s.buf.reserve = some pages) :
    (enterDeep s).1.buf.pool = s.buf.pool.filter fun p => !pages.contains p.1 := by
  have hbuf : s.deepAnnounced.buf = s.buf := State.enterPower_buf s .deep
  rw [enterDeep_eq, State.giveUpReserve_of_some (hbuf ▸ hr), State.freeUp, hbuf]

/-! ## Exit from DEEP -/

/-- The order of R176: what every exit does, then what its cause adds. -/
theorem exitDeep_of_deep {s : State} (cause : Cause) (hp : s.power.state = .deep) : exitDeep cause s =
    ((s.enterPower .quiet).grantTurn.restartDeepIdle,
      [.takeReserve, .takeLatch 0, .takeLatch 1, .takeLatch 2, .takeLatch 3, .judgeRebuild, .resumeTimers] ++
        (match cause with
          | .message => []
          | .wake => [.orderSpinUp]
          | .press => [.momentary])) := by
  unfold exitDeep
  rw [if_neg (not_not.mpr hp)]
  cases cause <;> rfl

theorem State.restartDeepIdle_deepIdle {s : State} (hs : s.power.state ≠ .starting) (hd : s.power.state ≠ .deep) :
    s.restartDeepIdle.power.deepIdle =
      if s.loader.image.deepIdleMin = 0 then none else some (s.now + s.loader.image.deepIdleMin * 60000) := by
  rw [State.restartDeepIdle, if_neg (by simp [hs, hd])]

/-- The time in DEEP moves every resume record's time of making on, and no slot's state (R140, R176). -/
theorem resumeTimers_slot {s : State} {since : Nat} (hd : s.power.deepSince = some since) (i : SlotNo) :
    (resumeTimers s).1.slots[i] =
      { s.slots[i] with resume := s.slots[i].resume.map fun r => { r with made := r.made + (s.now - since) } } := by
  rw [resumeTimers, hd]
  exact Vector.getElem_map ..

/-! ## The statements -/

/-- Settles O22: by the power state in which the WAKE finds the box. -/
theorem wakeIsAnsweredWithThePowerState : Obligations.WakeIsAnsweredWithThePowerState := by
  intro s t m h hb hk u answer
  have hexec : exec (.wake t) s = .next (State.finish (wake m u)) := message_dispatched h hb (isKind_of_kind hk)
  refine ⟨fun hp => ?awake, fun hp => ?waking, fun hp => ?quiet⟩
  case awake => rw [hexec, wake_of_awake m hp, finish_answerWake hk]
  case waking => rw [hexec, wake_of_waking m hp, finish_answerWake hk]
  case quiet => rw [hexec, wake_of_quiet m hp]

/-- Settles O60: the entry and the exit by what each leaves, then each timer at its time and before it. -/
theorem powerTimersActWhenTheyExpire : Obligations.PowerTimersActWhenTheyExpire := by
  refine ⟨fun s => ?entry, fun s cause hp => ?exit, fun s since i hd => ?resume, fun s t h => ?timers⟩
  case entry =>
    refine ⟨rfl, ?_, ?_, ?_, ?_, ?_, ?_, ?_, ?_, ?_, ?_, ?pool, fun b hb => enterDeep_memberBay hb, enterDeep_keeps s⟩
    case pool =>
      cases hr : s.buf.reserve with
      | none => exact enterDeep_pool_of_none hr
      | some pages => exact enterDeep_pool_of_some hr
    all_goals simp [carryOut]
  case exit =>
    rw [carryOut, exitDeep_of_deep cause hp]
    refine ⟨?_, ?announce, ?_, ?deepIdle, rfl, ?_, ?_, ?_⟩
    case announce => simp [Config.announcePeriod]
    case deepIdle => simp [State.restartDeepIdle_deepIdle]
    all_goals simp
  case resume =>
    have hslot := resumeTimers_slot hd i
    rw [carryOut]
    exact ⟨rfl, by rw [hslot], by rw [hslot]⟩
  case timers =>
    have hwindow : exec (.qualifierWindowExpiry t) s = .next (s.atTime t).qualifierExpiry := event_plain h State.qualifierExpiry
    refine ⟨fun e he hle hp => ⟨?quiet, ?spinDowns⟩, fun ho => ?noDiskIdle, fun e he hle hp => ?qualifier, fun ho => ?noQualifier,
      fun e he hle => ?deepDue, fun ho => ?noDeepDue⟩
    case quiet => simp
    case spinDowns => exact event_finish h (diskIdleExpiry_of_due (s := s.atTime t) hp (h.due_of_le he hle))
    case noDiskIdle => exact event_done h (diskIdleExpiry_of_kept (h.kept ho))
    case qualifier =>
      rw [hwindow, State.qualifierExpiry_of_due (s := s.atTime t) hp (h.due_of_le he hle)]
      rfl
    case noQualifier => rw [hwindow, State.qualifierExpiry_of_kept (h.kept ho)]
    case deepDue => exact event_finish h (deepIdleExpiry_of_due (h.due_of_le he hle))
    case noDeepDue => exact event_done h (deepIdleExpiry_of_not_due (h.not_due ho))

end Sys2Proof.Machine
end

section
/-! SUPPORT and PROOFS. The resets (section 11.5): what a reset leaves, what the settling of the configuration and the probes begun
behind it change, said once, and the statements about COLD and WARM reset. -/

namespace Sys2Proof.Machine

/-! ## What a reset leaves -/

/-- Everything but the loader, the bays and what the Link Front has to announce is as a reset leaves it (R186). -/
def State.AsReset (u : State) : Prop := ∃ (s : State) (bays : Vector Bay 4) (loader : Loader) (control : List OutMsg)
  (announce : Option Nat), u = { s.cleared bays loader with link := { Link.reset with control := control, announce := announce } }

theorem State.cleared_asReset (s : State) (bays : Vector Bay 4) (loader : Loader) : (s.cleared bays loader).AsReset :=
  ⟨s, bays, loader, [], none, rfl⟩

theorem State.AsReset.tablesLost {u : State} (h : u.AsReset) : TablesLost u := by
  obtain ⟨s, bays, loader, control, announce, rfl⟩ := h
  exact ⟨rfl, rfl, rfl, rfl, rfl, rfl, rfl, rfl, rfl, rfl, rfl, rfl, rfl, rfl, rfl, rfl, rfl, rfl, rfl⟩

theorem State.AsReset.withBays {u : State} (h : u.AsReset) (bays : Vector Bay 4) : State.AsReset { u with bays := bays } := by
  obtain ⟨s, _, loader, control, announce, rfl⟩ := h
  exact ⟨s, bays, loader, control, announce, rfl⟩

/-- A message sent changes the control queue at most (R16). -/
theorem State.send_eq (s : State) (m : OutMsg) : s.send m = { s with link.control := (s.send m).link.control } := by
  unfold State.send
  split <;> rfl

/-- A settling changes the loader and what is to be announced: the box is STARTING already (R18, R194). -/
theorem State.AsReset.settle {u : State} (h : u.AsReset) : (settle u).1.AsReset := by
  obtain ⟨s, bays, loader, control, announce, rfl⟩ := h
  rw [settle_eq, State.announce, State.send_eq]
  exact ⟨s, bays, _, _, _, rfl⟩

/-! ## The probes of start-up -/

/-- A bay as a probe that begins leaves it: switched on, its disk spinning up (R116). -/
def Bay.probing (x : Bay) (now : Nat) : Bay :=
  { x with power := true, offSince := none, probe := some .spin, spin := some { attempt := 1, start := now } }

/-- The probes of these bays begun, one after the other. -/
def State.beginProbes (s : State) (bs : List BayNo) : State := bs.foldl (fun u b => (startProbe b u).1) s

theorem State.AsReset.beginProbes (bs : List BayNo) : ∀ {u : State}, u.AsReset → (u.beginProbes bs).AsReset := by
  induction bs with
  | nil => exact id
  | cons b bs ih => exact fun h => ih (h.withBays _)

theorem State.beginProbes_bay (bs : List BayNo) (b : BayNo) : ∀ s : State,
    (s.beginProbes bs).bays[b] = if b ∈ bs then s.bays[b].probing s.now else s.bays[b] := by
  induction bs with
  | nil => exact fun s => rfl
  | cons c bs ih =>
    intro s
    show (State.beginProbes (s.updBay c (Bay.probing · s.now)) bs).bays[b] = _
    rw [ih, State.updBay_now]
    by_cases hc : b = c
    · subst hc
      rw [State.bays_updBay_same, if_pos List.mem_cons_self]
      exact ite_self _
    · simp [State.bays_updBay_other s c _ hc, hc]

/-- The probes of start-up are begun one after the other, and start-up waits for them (R187). -/
theorem runTasks_beginProbes (bs : List BayNo) : ∀ {n : Nat} {s : State}, bs.length < n →
    (bs ≠ [] ∨ ∃ b : BayNo, s.bays[b].probe ≠ none) →
    State.runTasks n (bs.map Task.startProbe ++ [.judgeProbes]) s = s.beginProbes bs := by
  induction bs with
  | nil =>
    intro n s hn hb
    obtain ⟨n, rfl⟩ := Nat.exists_eq_add_one.mpr hn
    obtain ⟨b, hb⟩ := hb.resolve_left fun hne => hne rfl
    have hstep : taskStep .judgeProbes [] s = (s, []) := by
      show ((judgeProbes s).1, (judgeProbes s).2 ++ []) = _
      rw [judgeProbes_of_probe hb]
      rfl
    rw [List.map_nil, List.nil_append, runTasks_cons, hstep, runTasks_nil]
    rfl
  | cons b bs ih =>
    intro n s hn _
    obtain ⟨n, rfl⟩ := Nat.exists_eq_add_one.mpr (Nat.zero_lt_of_lt hn)
    rw [List.map_cons, List.cons_append, runTasks_cons]
    exact ih (Nat.lt_of_succ_lt_succ hn) (.inr ⟨b, startProbe_probe b s⟩)

theorem settle_tasks (s : State) : (settle s).2 = if s.loader.cold then [.startProbes] else [.judgeProbes] := rfl

theorem settle_loader (s : State) : (settle s).1.loader = { s.loader with settled := true, phase := .probing } :=
  State.enterPower_loader _ _

/-- A settling is carried out with its one task behind it. -/
theorem finish_settle (s : State) :
    State.finish (s, [.settle]) = State.runTasks (Config.taskFuel - 1) (settle s).2 (settle s).1 := by
  rw [finish_cons]
  show State.runTasks _ ((settle s).2 ++ []) (settle s).1 = _
  rw [List.append_nil]

/-- After WARM, whose bays are being probed already, a settling begins nothing (R187). -/
theorem finish_settle_of_warm {s : State} (hc : s.loader.cold = false) (hb : ∃ b : BayNo, s.bays[b].probe ≠ none) :
    State.finish (s, [.settle]) = (settle s).1 := by
  rw [← settle_bays s] at hb
  rw [finish_settle, settle_tasks, hc]
  exact runTasks_beginProbes [] (by decide) (.inr hb)

/-- After COLD a settling switches every bay on and begins the probe of every present disk (R187). -/
theorem finish_settle_of_cold {s : State} (hc : s.loader.cold = true) (hb : ∃ b : BayNo, s.bays[b].present = true) :
    State.finish (s, [.settle]) =
      (startProbes (settle s).1).1.beginProbes (bayNos.filter fun b => s.bays[b].present) := by
  obtain ⟨b, hb⟩ := hb
  rw [finish_settle, settle_tasks, if_pos hc]
  have hfuel : Config.taskFuel - 1 = (Config.taskFuel - 2) + 1 := by decide
  have htasks : (startProbes (settle s).1).2 =
      (bayNos.filter fun b => s.bays[b].present).map Task.startProbe ++ [.judgeProbes] := by
    rw [← settle_bays s]
    rfl
  rw [hfuel, runTasks_cons]
  show State.runTasks _ ((startProbes (settle s).1).2 ++ []) (startProbes (settle s).1).1 = _
  rw [List.append_nil, htasks]
  refine runTasks_beginProbes _ ?_ (.inl (List.ne_nil_of_mem (List.mem_filter.mpr ⟨List.mem_finRange b, hb⟩)))
  exact (List.length_filter_le _ bayNos).trans_lt (by decide)

theorem startProbes_bay (s : State) (b : BayNo) : (startProbes s).1.bays[b] = { s.bays[b] with power := true } :=
  Vector.getElem_map ..

/-- A settling after COLD leaves every bay on, and every present disk spinning up (R187). -/
theorem finish_settle_bay {s : State} (hc : s.loader.cold = true) (hb : ∃ b : BayNo, s.bays[b].present = true) (b : BayNo) :
    (State.finish (s, [.settle])).bays[b] =
      if s.bays[b].present then s.bays[b].probing s.now else { s.bays[b] with power := true } := by
  have hnow : (startProbes (settle s).1).1.now = s.now := State.enterPower_now _ _
  have hmem : b ∈ bayNos.filter (fun b => s.bays[b].present) ↔ s.bays[b].present = true :=
    List.mem_filter.trans (and_iff_right (List.mem_finRange b))
  rw [finish_settle_of_cold hc hb, State.beginProbes_bay, hnow, startProbes_bay, settle_bays]
  simp only [hmem]
  rfl

/-! ## The state each reset begins with -/

/-- The part as a COLD reset leaves it before the configuration is settled (R186). -/
def State.cold (s : State) (straps : Straps) (present : Vector Bool 4) : State := s.cleared (present.map Bay.reset)
  { straps := straps, image := budget straps ConfigImage.defaults, settled := false, phase := .config, cold := true }

/-- The part as a WARM reset leaves it before a settled configuration is taken up again (R186). -/
def State.warm (s : State) : State :=
  s.cleared (s.bays.map (Bay.warm · s.now)) { s.loader with phase := .config, cold := false }

section
variable (s : State) (straps : Straps) (present : Vector Bool 4) (b : BayNo)

theorem State.cold_bay : (s.cold straps present).bays[b] = Bay.reset present[b] := Vector.getElem_map ..

theorem State.cold_image : (s.cold straps present).loader.image = budget straps ConfigImage.defaults := by
  simp only [State.cold, State.cleared]

theorem State.warm_bay : s.warm.bays[b] = s.bays[b].warm s.now := Vector.getElem_map ..

end

/-- R194: the flash is read. -/
theorem coldReset_of_flash {straps : Straps} (hf : straps.flashPresent = true) (present : Vector Bool 4) (s : State) :
    coldReset straps present s = (s.cold straps present, []) := by
  simp [coldReset, State.cold, hf]

/-- R194: no flash is fitted. -/
theorem coldReset_of_noFlash {straps : Straps} (hf : straps.flashPresent = false) (present : Vector Bool 4) (s : State) :
    coldReset straps present s = (s.cold straps present, [.settle]) := by
  simp [coldReset, State.cold, hf]

theorem warmReset_of_settled {s : State} (hs : s.loader.settled = true) : warmReset s = (s.warm, [.settle]) := by
  simp [warmReset, State.warm, State.cleared, hs]

theorem warmReset_of_unsettled {s : State} (hs : s.loader.settled = false) : warmReset s = (s.warm, []) := by
  simp [warmReset, State.warm, State.cleared, hs]

/-! ## A COLD reset with no flash and a disk to probe -/

section
variable {present : Vector Bool 4} (s : State) (straps : Straps) (hp : ∃ b : BayNo, present[b] = true)
include hp

theorem State.cold_present : ∃ b : BayNo, (s.cold straps present).bays[b].present = true := by
  obtain ⟨b, hb⟩ := hp
  exact ⟨b, by rwa [State.cold_bay]⟩

theorem cold_settle_tablesLost : TablesLost (State.finish (s.cold straps present, [.settle])) := by
  rw [finish_settle_of_cold rfl (s.cold_present straps hp)]
  have hreset : (s.cold straps present).AsReset := State.cleared_asReset _ _ _
  exact ((hreset.settle.withBays _).beginProbes _).tablesLost

/-- The configuration is settled, and the ANNOUNCE of STARTING is the one message queued (R18, R194). -/
theorem cold_settle_announced : (State.finish (s.cold straps present, [.settle])).loader.settled = true ∧
    (State.finish (s.cold straps present, [.settle])).link.control.length = 1 := by
  obtain ⟨hsettled, _, _, hcontrol⟩ := finish_settle_probing (s := s.cold straps present) (s.cold_present straps hp)
  exact ⟨hsettled, by rw [hcontrol]; rfl⟩

theorem cold_settle_bay (b : BayNo) : (State.finish (s.cold straps present, [.settle])).bays[b] =
    if present[b] then (Bay.reset present[b]).probing s.now else { Bay.reset present[b] with power := true } := by
  rw [finish_settle_bay rfl (s.cold_present straps hp), State.cold_bay]
  rfl

end

/-! ## A WARM reset -/

/-- With the configuration settled the reset's one task is the settling, which finds every bay being probed (R186, R187). -/
theorem finish_warmReset_of_settled {s : State} (hs : s.loader.settled = true) :
    State.finish (warmReset s) = (settle s.warm).1 := by
  rw [warmReset_of_settled hs]
  refine finish_settle_of_warm rfl ⟨0, ?_⟩
  rw [State.warm_bay]
  nofun

/-- Straps and configuration image are kept (R186). -/
theorem settle_warm_loader (s : State) :
    (settle s.warm).1.loader = { s.loader with settled := true, phase := .probing, cold := false } := settle_loader s.warm

/-- Every bay is off from the reset on, and nothing is known of its disk (R124, R186). -/
theorem State.bays_off_of_warm {s u : State} (hu : u.bays = s.warm.bays) (b : BayNo) :
    u.bays[b].present = s.bays[b].present ∧ u.bays[b].power = false ∧ u.bays[b].offSince = some s.now ∧
      u.bays[b].state = .empty ∧ u.bays[b].queue = [] ∧ u.bays[b].flight = none := by
  rw [hu, State.warm_bay]
  exact ⟨rfl, rfl, rfl, rfl, rfl, rfl⟩

/-! ## The statements -/

/-- Settles O6: the state the part starts in is one that a reset leaves. -/
theorem resetHasTheInvariant : Obligations.ResetHasTheInvariant := by
  have hreset : State.reset.AsReset := State.cleared_asReset State.reset State.reset.bays State.reset.loader
  exact ⟨cleared_inv State.reset State.reset.bays State.reset.loader, hreset.tablesLost⟩

/-- Settles O7: with the flash strapped the reset leaves no task. -/
theorem coldResetWaitsForTheFlash : Obligations.ColdResetWaitsForTheFlash := by
  intro s t straps present h hf
  have hexec : exec (.coldReset t straps present) s = .next ((s.atTime t).cold straps present) := by
    rw [← finish_nil ((s.atTime t).cold straps present), ← coldReset_of_flash hf]
    exact event_of_settled h _
  refine ⟨_, hexec, (State.cleared_asReset _ _ _).tablesLost, rfl, rfl, rfl, rfl, h.atTime_now, fun b => ?_⟩
  rw [State.cold_bay]
  exact ⟨rfl, rfl, rfl, rfl, rfl, rfl⟩

/-- Settles O8: with the flash open the reset's one task is the settling, whose probes follow where a disk is present. -/
theorem coldResetWithoutFlashTakesDefaults : Obligations.ColdResetWithoutFlashTakesDefaults := by
  intro s t straps present h hf
  have hexec : exec (.coldReset t straps present) s = .next (State.finish ((s.atTime t).cold straps present, [.settle])) := by
    rw [← coldReset_of_noFlash hf]
    exact event_of_settled h _
  have hkeeps := finish_after (w := ((s.atTime t).cold straps present, [.settle])) (Keeps.refl _)
  refine ⟨_, hexec, hkeeps.straps, hkeeps.image.trans (State.cold_image _ straps present), fun hp => ?_⟩
  obtain ⟨hsettled, hcontrol⟩ := cold_settle_announced (s.atTime t) straps hp
  refine ⟨cold_settle_tablesLost _ straps hp, hsettled, hcontrol, fun b => ?_⟩
  rw [cold_settle_bay _ straps hp, h.atTime_now]
  cases present[b] <;> exact ⟨rfl, rfl⟩

/-- Settles O9: by whether the configuration was settled before the reset. -/
theorem warmResetKeepsTheConfiguration : Obligations.WarmResetKeepsTheConfiguration := by
  intro s t h
  have hexec : exec (.warmReset t) s = .next (State.finish (warmReset (s.atTime t))) := event_of_settled h _
  have hreset : (s.atTime t).warm.AsReset := State.cleared_asReset _ _ _
  have hoff {u : State} (hu : u.bays = (s.atTime t).warm.bays) := State.bays_off_of_warm hu
  rw [h.atTime_now] at hoff
  cases hs : s.loader.settled with
  | false =>
    rw [warmReset_of_unsettled (s := s.atTime t) hs] at hexec
    exact ⟨_, hexec, hreset.tablesLost, rfl, rfl, hs, rfl, hoff rfl⟩
  | true =>
    rw [finish_warmReset_of_settled (s := s.atTime t) hs] at hexec
    have hloader := settle_warm_loader (s.atTime t)
    exact ⟨_, hexec, hreset.settle.tablesLost, (congrArg Loader.straps hloader :), (congrArg Loader.image hloader :),
      (congrArg Loader.settled hloader :), (congrArg Loader.cold hloader :), hoff (settle_bays _)⟩

end Sys2Proof.Machine
end

section
/-! SUPPORT and PROOFS. The queue, the clock and the configuration: what every command keeps, said once over the commands; the
ranges of the fields of a configuration record; the DRAM budget; and the statements about them. -/

namespace Sys2Proof.Machine

/-! ## A step -/

theorem step_of_nil {s : State} (h : s.pending = []) : step s = .next s.tick := by
  simp [step, h]

theorem step_of_cons {s : State} {c : Instr} {q : List Instr} (h : s.pending = c :: q) :
    step s = exec c { s with pending := q } := by
  simp [step, h]

/-! ## What every command keeps -/

/-- Carrying out earlier work first keeps what `Keeps` names of the state at the command's time. -/
theorem State.arrive_keeps (s : State) (t : Nat) : Keeps (s.atTime t) (s.arrive t) :=
  have hdrop : Keeps (s.atTime t) (({ s with unfinished := [] } : State).atTime t) :=
    ⟨rfl, rfl, rfl, rfl, fun i => i.of_same rfl rfl rfl⟩
  hdrop.trans (finish_after (w := (({ s with unfinished := [] } : State).atTime t, s.unfinished)) (Keeps.refl _))

/-- The command is one event at its time, whose own change, before its tasks are carried out, relates the states by `R`. -/
def ActsWithin (R : State → State → Prop) (c : Instr) : Prop :=
  ∃ f : State → Work, (∀ s, exec c s = s.event c.time f) ∧ ∀ v, R v (f v).1

section
variable {R : State → State → Prop} {c : Instr}

theorem ActsWithin.mono {Q : State → State → Prop} (h : ActsWithin R c) (hRQ : ∀ v w, R v w → Q v w) : ActsWithin Q c := by
  obtain ⟨f, hexec, hf⟩ := h
  exact ⟨f, hexec, fun v => hRQ _ _ (hf v)⟩

theorem ActsWithin.answers (h : ActsWithin R c) (s : State) : Answers (exec c s) := by
  obtain ⟨f, hexec, _⟩ := h
  exact ⟨_, hexec s⟩

/-- The tasks of a command keep what `Keeps` names of the state its own change leaves. -/
theorem ActsWithin.outcome {s u : State} (h : ActsWithin R c) (hu : exec c s = .next u) :
    ∃ w, R (s.arrive c.time) w ∧ Keeps w u := by
  obtain ⟨f, hexec, hf⟩ := h
  rw [hexec] at hu
  cases hu
  exact ⟨_, hf _, finish_after (Keeps.refl _)⟩

theorem actsWithin_of_event {f : State → Work} (hf : ∀ {v w : State}, Keeps v w → Keeps v (f w).1)
    (hexec : ∀ s, exec c s = s.event c.time f) : ActsWithin Keeps c :=
  ⟨f, hexec, fun v => hf (Keeps.refl v)⟩

/-- An event that leaves no task. -/
theorem actsWithin_of_plain {g : State → State} (hg : ∀ {v w : State}, Keeps v w → Keeps v (g w))
    (hexec : ∀ s, exec c s = s.event c.time fun v => (g v, [])) : ActsWithin Keeps c :=
  actsWithin_of_event hg hexec

/-- A message command, whatever R6 makes of the message. -/
theorem actsWithin_of_message {mine : Msg → Bool} {act : Msg → State → Work}
    (hact : ∀ {v w : State} (m : Msg), Keeps v w → Keeps v (act m w).1)
    (hexec : ∀ s, exec c s = s.message c.time mine act) : ActsWithin Keeps c :=
  actsWithin_of_event (State_takeMessage_after fun m _ => hact m) hexec

end

/-- A WARM reset loses the tables, which `Keeps` does not name, and keeps straps and image (R186). -/
theorem warmReset_keeps (v : State) : Keeps v (warmReset v).1 := ⟨rfl, rfl, rfl, rfl, fun _ => cleared_inv ..⟩

/-- Every command but a COLD reset and the configuration read keeps what `Keeps` names. -/
theorem actsWithin_keeps {c : Instr} (hc : configures c = false) : ActsWithin Keeps c := by
  cases c with
  | coldReset | configReadEnd => cases hc
  | warmReset t => exact ⟨warmReset, fun _ => rfl, warmReset_keeps⟩
  | capacityReadEnd t report capacity => exact actsWithin_of_event (capacityReadEnd_after _ _ _) fun _ => rfl
  | labelDone t report data => exact actsWithin_of_event (labelDone_after _ _ _) fun _ => rfl
  | frameArrival t frame => exact actsWithin_of_plain (State_takeIn_after frame) fun _ => rfl
  | frameDropped t => exact actsWithin_of_plain State_dropFrame_after fun _ => rfl
  | arpRequest t => exact actsWithin_of_plain State_answerArp_after fun _ => rfl
  | hello t => exact actsWithin_of_message hello_after fun _ => rfl
  | pairAsk t => exact actsWithin_of_message pairAsk_after fun _ => rfl
  | pairConfirm t => exact actsWithin_of_message pairConfirm_after fun _ => rfl
  | unpair t => exact actsWithin_of_message unpair_after fun _ => rfl
  | query t => exact actsWithin_of_message query_after fun _ => rfl
  | wake t => exact actsWithin_of_message wake_after fun _ => rfl
  | runOpen t => exact actsWithin_of_message runOpen_after fun _ => rfl
  | runClose t => exact actsWithin_of_message runClose_after fun _ => rfl
  | runAbort t => exact actsWithin_of_message runAbort_after fun _ => rfl
  | offer t => exact actsWithin_of_message offer_after fun _ => rfl
  | chunk t => exact actsWithin_of_message chunk_after fun _ => rfl
  | arrivalTimeout t record => exact actsWithin_of_event (arrivalTimeout_after record) fun _ => rfl
  | runIdleTimeout t run => exact actsWithin_of_event (runIdleTimeout_after run) fun _ => rfl
  | checkLaneTake t lane verifyFirst => exact actsWithin_of_plain (State_laneTake_after lane verifyFirst) fun _ => rfl
  | checkResultIngest t lane => exact actsWithin_of_event (checkResultIngest_after lane) fun _ => rfl
  | checkResultVerify t lane => exact actsWithin_of_event (checkResultVerify_after lane) fun _ => rfl
  | objectBegin t => exact actsWithin_of_message objectBegin_after fun _ => rfl
  | objectAppend t => exact actsWithin_of_message objectAppend_after fun _ => rfl
  | objectFinish t => exact actsWithin_of_message objectFinish_after fun _ => rfl
  | objectDelete t => exact actsWithin_of_message objectDelete_after fun _ => rfl
  | objectInfo t => exact actsWithin_of_message objectInfo_after fun _ => rfl
  | albumCreate t => exact actsWithin_of_message albumCreate_after fun _ => rfl
  | albumAdd t => exact actsWithin_of_message albumAdd_after fun _ => rfl
  | albumRemove t => exact actsWithin_of_message albumRemove_after fun _ => rfl
  | albumDrop t => exact actsWithin_of_message albumDrop_after fun _ => rfl
  | albumList t => exact actsWithin_of_message albumList_after fun _ => rfl
  | play t => exact actsWithin_of_message play_after fun _ => rfl
  | resume t => exact actsWithin_of_message resume_after fun _ => rfl
  | jumpFloor t | jumpPeak t | easeFloor t | easePeak t => exact actsWithin_of_message (rateAction_after _) fun _ => rfl
  | retune t => exact actsWithin_of_message (fun m => rateAction_after _ m) fun _ => rfl
  | retarget t => exact actsWithin_of_message retarget_after fun _ => rfl
  | dropNext t => exact actsWithin_of_message dropNext_after fun _ => rfl
  | stop t => exact actsWithin_of_message stop_after fun _ => rfl
  | taperStop t => exact actsWithin_of_message taperStop_after fun _ => rfl
  | allStop t => exact actsWithin_of_message allStop_after fun _ => rfl
  | viewReport t => exact actsWithin_of_message viewReport_after fun _ => rfl
  | groupCall t => exact actsWithin_of_message groupCall_after fun _ => rfl
  | haltCall t => exact actsWithin_of_message haltCall_after fun _ => rfl
  | groupGo t => exact actsWithin_of_message groupGo_after fun _ => rfl
  | groupHalt t => exact actsWithin_of_message groupHalt_after fun _ => rfl
  | transmitArbiter t => exact actsWithin_of_plain State_arbitrate_after fun _ => rfl
  | announceTimer t => exact actsWithin_of_plain State_announceExpiry_after fun _ => rfl
  | pairingWindowExpiry t => exact actsWithin_of_plain State_windowExpiry_after fun _ => rfl
  | pendingAskExpiry t mac => exact actsWithin_of_plain (State_askExpiry_after mac) fun _ => rfl
  | pacingInterval t slot => exact actsWithin_of_event (pacingInterval_after slot) fun _ => rfl
  | stalledInterval t slot => exact actsWithin_of_event (stalledInterval_after slot) fun _ => rfl
  | stallTimeout t slot => exact actsWithin_of_event (stallTimeout_after slot) fun _ => rfl
  | resumeRecordExpiry t slot => exact actsWithin_of_event (resumeExpiry_after slot) fun _ => rfl
  | primedTimeout t slot => exact actsWithin_of_event (primedTimeout_after slot) fun _ => rfl
  | blockTimer t => exact actsWithin_of_event blockExpiry_after fun _ => rfl
  | closeTimer t => exact actsWithin_of_event closeExpiry_after fun _ => rfl
  | xorJobTake t => exact actsWithin_of_plain State_takeJob_after fun _ => rfl
  | parityJobEnd t => exact actsWithin_of_event parityJobEnd_after fun _ => rfl
  | reconstructionJobEnd t => exact actsWithin_of_event reconstructionJobEnd_after fun _ => rfl
  | dramTurnEnd t => exact actsWithin_of_plain State_dramTurn_after fun _ => rfl
  | readSlotDone t report data => exact actsWithin_of_event (readSlotDone_after _ _ _) fun _ => rfl
  | writeSlotDone t report => exact actsWithin_of_event (writeSlotDone_after _ _) fun _ => rfl
  | readJournalDone t report data => exact actsWithin_of_event (readJournalDone_after _ _ _) fun _ => rfl
  | writeJournalDone t report => exact actsWithin_of_event (writeJournalDone_after _ _) fun _ => rfl
  | spinDownDone t report => exact actsWithin_of_event (spinDownDone_after _ _) fun _ => rfl
  | commandAttemptFailed t report => exact actsWithin_of_event (errorReport_after _ _) fun _ => rfl
  | commandTimeout t bay => exact actsWithin_of_event (commandTimeout_after bay) fun _ => rfl
  | spinUpReady t bay => exact actsWithin_of_event (spinUpReady_after bay) fun _ => rfl
  | spinUpTimeout t bay => exact actsWithin_of_event (spinUpTimeout_after bay) fun _ => rfl
  | powerCycleOn t bay => exact actsWithin_of_event (powerCycleOn_after bay) fun _ => rfl
  | diskInserted t bay same => exact actsWithin_of_event (diskInserted_after bay same) fun _ => rfl
  | diskRemoved t bay => exact actsWithin_of_event (diskRemoved_after bay) fun _ => rfl
  | buttonLineChange t button pressed => exact actsWithin_of_plain (State_lineChange_after button pressed) fun _ => rfl
  | buttonDebounceExpiry t button => exact actsWithin_of_event (debounceExpiry_after button) fun _ => rfl
  | diskIdleTimer t => exact actsWithin_of_event diskIdleExpiry_after fun _ => rfl
  | qualifierWindowExpiry t => exact actsWithin_of_plain State_qualifierExpiry_after fun _ => rfl
  | deepIdleTimer t => exact actsWithin_of_event deepIdleExpiry_after fun _ => rfl
  | unknownKindCode t => exact actsWithin_of_message unknownKind_after fun _ => rfl

theorem exec_keeps {c : Instr} {s u : State} (hc : configures c = false) (h : exec c s = .next u) :
    Keeps (s.atTime c.time) u := by
  obtain ⟨w, hw, hu⟩ := (actsWithin_keeps hc).outcome h
  exact (s.arrive_keeps c.time).trans (hw.trans hu)

/-- Two states with the same queue and the same clock. -/
def SameQueueAndClock (s t : State) : Prop := t.pending = s.pending ∧ t.now = s.now

theorem Keeps.sameQueueAndClock {s t : State} (h : Keeps s t) : SameQueueAndClock s t := ⟨h.pending, h.now⟩

theorem SameQueueAndClock.trans {s t u : State} (h : SameQueueAndClock s t) (k : SameQueueAndClock t u) :
    SameQueueAndClock s u := ⟨k.1.trans h.1, k.2.trans h.2⟩

theorem State.withImage_sameQueueAndClock (v : State) (image : ConfigImage) :
    SameQueueAndClock v (v.withImage image) := ⟨rfl, rfl⟩

theorem configReadEnd_sameQueueAndClock (answer : Option (List Byte)) (v : State) :
    SameQueueAndClock v (configReadEnd answer v).1 := by
  by_cases h : v.loader.settled = true ∨ v.loader.straps.flashPresent = false
  · rw [configReadEnd_of_settled h]
    exact (State_idle_after (Keeps.refl v)).sameQueueAndClock
  · rw [not_or, Bool.not_eq_true, Bool.not_eq_false] at h
    rw [configReadEnd_of_reading h.1 h.2]
    exact v.withImage_sameQueueAndClock _

/-- No command's own change touches the queue or the clock, the COLD reset and the configuration read included. -/
theorem actsWithin_sameQueueAndClock (c : Instr) : ActsWithin SameQueueAndClock c := by
  by_cases hc : configures c = false
  · exact (actsWithin_keeps hc).mono fun _ _ => Keeps.sameQueueAndClock
  cases c with
  | coldReset t straps present => exact ⟨coldReset straps present, fun _ => rfl, fun _ => ⟨rfl, rfl⟩⟩
  | configReadEnd t answer => exact ⟨configReadEnd answer, fun _ => rfl, configReadEnd_sameQueueAndClock answer⟩
  | _ => exact absurd rfl hc

theorem exec_sameQueueAndClock {c : Instr} {s u : State} (h : exec c s = .next u) :
    SameQueueAndClock (s.atTime c.time) u := by
  obtain ⟨w, hw, hu⟩ := (actsWithin_sameQueueAndClock c).outcome h
  exact (s.arrive_keeps c.time).sameQueueAndClock.trans (hw.trans hu.sameQueueAndClock)

theorem exec_answers (c : Instr) (s : State) : Answers (exec c s) := (actsWithin_sameQueueAndClock c).answers s

/-! ## Fields of a record -/

theorem beNat_concat (bs : List Byte) (x : Byte) : beNat (bs ++ [x]) = beNat bs * 256 + x.toNat := by
  simp [beNat]

/-- Fewer bytes give a smaller number. -/
theorem beNat_lt (bs : List Byte) : beNat bs < 256 ^ bs.length := by
  induction bs using List.reverseRecOn with
  | nil => decide
  | append_singleton bs x ih =>
    have hx : x.toNat < 256 := x.isLt
    rw [beNat_concat, List.length_append, List.length_singleton, pow_succ]
    omega

/-- The first byte is the most significant one (section 4.3). -/
theorem beNat_cons (x : Byte) (bs : List Byte) : beNat (x :: bs) = x.toNat * 256 ^ bs.length + beNat bs := by
  induction bs using List.reverseRecOn with
  | nil => simp [beNat]
  | append_singleton bs y ih =>
    rw [← List.cons_append, beNat_concat, ih, beNat_concat, List.length_append, List.length_singleton, pow_succ]
    ring

theorem field_lt (b : List Byte) (o k : Nat) : field b o k < 256 ^ k :=
  (beNat_lt _).trans_le (Nat.pow_le_pow_right (by decide) (List.length_take_le ..))

/-- Above five bytes a MAC address field holds its first byte, or nothing where the record ends before its last byte. -/
theorem field_six_div (b : List Byte) (o : Nat) : field b o 6 / 2 ^ 40 = byteAt b o ∨ field b o 6 / 2 ^ 40 = 0 := by
  have hbyte : byteAt b o = ((b.drop o).getD 0 0).toNat := by simp [byteAt, List.getD_eq_getElem?_getD]
  rw [hbyte, field]
  cases b.drop o with
  | nil => exact .inr rfl
  | cons x xs =>
    have hrest := beNat_lt (xs.take 5)
    rw [List.take_succ_cons]
    obtain hfull | hshort := (List.length_take_le 5 xs).eq_or_lt
    · left
      rw [hfull] at hrest
      rw [beNat_cons, hfull, List.getD_cons_zero]
      omega
    · right
      have hlt : beNat (x :: xs.take 5) < 256 ^ 5 :=
        (beNat_lt _).trans_le (Nat.pow_le_pow_right (by decide) hshort)
      omega

/-- A MAC address field whose first byte is even is no group address. -/
theorem macAt_bit40 {b : List Byte} {o : Nat} (h : byteAt b o % 2 ≠ 1) : (macAt b o).getLsbD 40 = false := by
  have hdiv := field_six_div b o
  have hbit : field b o 6 / 2 ^ 40 % 2 ≠ 1 := by omega
  rw [macAt, BitVec.getLsbD_ofNat, Nat.testBit_eq_decide_div_mod_eq, decide_eq_false hbit, Bool.and_false]

theorem macAt_toNat (b : List Byte) (o : Nat) : (macAt b o).toNat = field b o 6 :=
  Nat.mod_eq_of_lt (field_lt b o 6)

theorem macAt_ne_zero {b : List Byte} {o : Nat} (h : field b o 6 ≠ 0) : macAt b o ≠ 0 := fun hz =>
  h ((macAt_toNat b o).symm.trans (congrArg BitVec.toNat hz))

theorem ipAt_toNat (b : List Byte) (o : Nat) : (ipAt b o).toNat = field b o 4 :=
  Nat.mod_eq_of_lt (field_lt b o 4)

theorem ipAt_ne_zero {b : List Byte} {o : Nat} (h : field b o 4 ≠ 0) : ipAt b o ≠ 0 := fun hz =>
  h ((ipAt_toNat b o).symm.trans (congrArg BitVec.toNat hz))

theorem ipAt_ne_allOnes {b : List Byte} {o : Nat} (h : field b o 4 ≠ 0xFFFFFFFF) : ipAt b o ≠ BitVec.allOnes 32 := fun hz =>
  h ((ipAt_toNat b o).symm.trans (congrArg BitVec.toNat hz))

theorem clampNat_mem {lo hi : Nat} (h : lo ≤ hi) (n : Nat) : lo ≤ clampNat lo hi n ∧ clampNat lo hi n ≤ hi := by
  unfold clampNat
  omega

theorem powerOfTwo_mem (n : Nat) : powerOfTwo n ∈ [1, 2, 4, 8, 16, 32, 64, 128] := by
  unfold powerOfTwo
  split_ifs <;> decide

/-! ## The ranges of R195 -/

theorem configFields_mac (b : List Byte) : (configFields b).mac ≠ 0 ∧ (configFields b).mac.getLsbD 40 = false := by
  simp only [configFields, Bool.or_eq_true, decide_eq_true_eq]
  split_ifs with h
  · decide
  · rw [not_or] at h
    exact ⟨macAt_ne_zero h.2, macAt_bit40 h.1⟩

theorem configFields_ip (b : List Byte) : (configFields b).ip ≠ 0 ∧ (configFields b).ip ≠ BitVec.allOnes 32 := by
  simp only [configFields, Bool.or_eq_true, decide_eq_true_eq]
  split_ifs with h
  · decide
  · rw [not_or] at h
    exact ⟨ipAt_ne_zero h.1, ipAt_ne_allOnes h.2⟩

theorem configFields_broadcast (b : List Byte) : (configFields b).broadcast ≠ 0 := by
  simp only [configFields]
  split_ifs with h
  · decide
  · exact ipAt_ne_zero h

theorem configFields_port (b : List Byte) : 1 ≤ (configFields b).port ∧ (configFields b).port ≤ 65535 := by
  have hlt := field_lt b 19 2
  simp only [configFields]
  split_ifs with h
  · decide
  · omega

theorem configFields_deepIdleMin (b : List Byte) : (configFields b).deepIdleMin = 0 ∨
    5 ≤ (configFields b).deepIdleMin ∧ (configFields b).deepIdleMin ≤ 1440 := by
  simp only [configFields]
  split_ifs with h
  · exact .inl rfl
  · exact .inr (clampNat_mem (by decide) _)

/-- The values the DRAM budget lowers lie in their ranges (R195, R196). -/
structure PoolsInRange (c : ConfigImage) : Prop where
  staging_ge : 256 ≤ c.stagingPages
  staging_le : c.stagingPages ≤ 8192
  cache_ge : 64 ≤ c.cachePages
  cache_le : c.cachePages ≤ 2048
  index_ge : 65536 ≤ c.indexCapacity
  index_le : c.indexCapacity ≤ 8388608
  object_ge : 4096 ≤ c.objectCapacity
  object_le : c.objectCapacity ≤ 524288

/-- A clamped value rounded down to a unit stays in a range whose ends are multiples of the unit. -/
theorem clampNat_div_mul_mem {u lo hi : Nat} (hu : 0 < u) (h : lo ≤ hi) (n : Nat) :
    lo * u ≤ clampNat (lo * u) (hi * u) n / u * u ∧ clampNat (lo * u) (hi * u) n / u * u ≤ hi * u := by
  obtain ⟨hlo, hhi⟩ := clampNat_mem (Nat.mul_le_mul_right u h) n
  exact ⟨Nat.mul_le_mul_right u ((Nat.le_div_iff_mul_le hu).mpr hlo), (Nat.div_mul_le_self _ u).trans hhi⟩

theorem configFields_pools (b : List Byte) : PoolsInRange (configFields b) where
  staging_ge := (clampNat_mem (by decide) _).1
  staging_le := (clampNat_mem (by decide) _).2
  cache_ge := (clampNat_mem (by decide) _).1
  cache_le := (clampNat_mem (by decide) _).2
  index_ge := (clampNat_div_mul_mem (u := 65536) (lo := 1) (hi := 128) (by decide) (by decide) _).1
  index_le := (clampNat_div_mul_mem (u := 65536) (lo := 1) (hi := 128) (by decide) (by decide) _).2
  object_ge := (clampNat_div_mul_mem (u := 4096) (lo := 1) (hi := 128) (by decide) (by decide) _).1
  object_le := (clampNat_div_mul_mem (u := 4096) (lo := 1) (hi := 128) (by decide) (by decide) _).2

theorem defaults_pools : PoolsInRange ConfigImage.defaults := by
  constructor <;> decide

theorem configOf_pools (answer : Option (List Byte)) : PoolsInRange (configOf answer) := by
  cases answer with
  | none => exact defaults_pools
  | some b =>
    rw [configOf]
    cases configGood b with
    | true => exact configFields_pools b
    | false => exact defaults_pools

/-! ## The DRAM budget (R196) -/

/-- How many steps of `u` lower `n` to `lo`. -/
def stepsAbove (lo u n : Nat) : Nat := (n - lo + (u - 1)) / u

theorem stepsAbove_eq_zero_iff {lo u n : Nat} (hu : 0 < u) : stepsAbove lo u n = 0 ↔ n ≤ lo := by
  rw [stepsAbove, Nat.div_eq_zero_iff_lt hu]
  omega

theorem stepsAbove_lower {lo u n : Nat} (hu : 0 < u) : stepsAbove lo u (max lo (n - u)) = stepsAbove lo u n - 1 := by
  have hrest : max lo (n - u) - lo = n - lo - u := by omega
  rw [stepsAbove, stepsAbove, hrest]
  obtain hlast | hmore := Nat.lt_or_ge (n - lo) u
  · have hleft : (n - lo - u + (u - 1)) / u = 0 := Nat.div_eq_of_lt (by omega)
    have hnow : (n - lo + (u - 1)) / u < 2 := Nat.div_lt_of_lt_mul (by omega)
    omega
  · have hsum : n - lo + (u - 1) = n - lo - u + (u - 1) + u := by omega
    rw [hsum, Nat.add_div_right _ hu, Nat.succ_sub_one]

/-- How many lowering steps are left until every value is at its minimum. -/
def stepsLeft (c : ConfigImage) : Nat :=
  stepsAbove 65536 65536 c.indexCapacity + stepsAbove 4096 4096 c.objectCapacity +
    stepsAbove 256 256 c.stagingPages + stepsAbove 64 64 c.cachePages

theorem PoolsInRange.stepsLeft_le {c : ConfigImage} (h : PoolsInRange c) : stepsLeft c ≤ 400 := by
  obtain ⟨_, hs, _, hc, _, hi, _, ho⟩ := h
  unfold stepsLeft stepsAbove
  omega

/-- The value a step lowers has one step less; the ones before it have none. -/
theorem stepsLeft_budgetStep (c : ConfigImage) : stepsLeft (budgetStep c) = stepsLeft c - 1 := by
  have hindex := stepsAbove_eq_zero_iff (lo := 65536) (u := 65536) (n := c.indexCapacity) (by decide)
  have hobject := stepsAbove_eq_zero_iff (lo := 4096) (u := 4096) (n := c.objectCapacity) (by decide)
  have hstaging := stepsAbove_eq_zero_iff (lo := 256) (u := 256) (n := c.stagingPages) (by decide)
  unfold budgetStep
  split_ifs
  · simp only [stepsLeft, stepsAbove_lower (lo := 65536) (u := 65536) (by decide)]
    omega
  · simp only [stepsLeft, stepsAbove_lower (lo := 4096) (u := 4096) (by decide)]
    omega
  · simp only [stepsLeft, stepsAbove_lower (lo := 256) (u := 256) (by decide)]
    omega
  · simp only [stepsLeft, stepsAbove_lower (lo := 64) (u := 64) (by decide)]
    omega

theorem budgetStep_pools {c : ConfigImage} (h : PoolsInRange c) : PoolsInRange (budgetStep c) := by
  obtain ⟨_, _, _, _, _, _, _, _⟩ := h
  unfold budgetStep
  split_ifs <;> constructor <;> dsimp only <;> omega

theorem budgetStep_defaultsFlag (c : ConfigImage) : (budgetStep c).defaultsFlag = c.defaultsFlag := by
  unfold budgetStep
  split_ifs <;> rfl

/-- With every value at its minimum the image fits the smaller DRAM. -/
theorem dramNeed_of_stepsLeft_zero {c : ConfigImage} (h : stepsLeft c = 0) : dramNeed c ≤ 512 * Config.mib := by
  obtain ⟨⟨⟨hi, ho⟩, hs⟩, hc⟩ : ((_ ∧ _) ∧ _) ∧ _ := by simpa only [stepsLeft, Nat.add_eq_zero_iff] using h
  rw [stepsAbove_eq_zero_iff (by decide)] at hi ho hs hc
  unfold dramNeed Config.mib
  omega

theorem budgetFit_of_fits {dram : Nat} {c : ConfigImage} (h : dramNeed c ≤ dram) (n : Nat) : budgetFit dram n c = c := by
  cases n with
  | zero => rfl
  | succ n => rw [budgetFit, if_pos h]

theorem budgetFit_of_tooLarge {dram : Nat} {c : ConfigImage} (h : ¬dramNeed c ≤ dram) (n : Nat) :
    budgetFit dram (n + 1) c = budgetFit dram n (budgetStep c) := by
  rw [budgetFit, if_neg h]

theorem budgetFit_fits {dram n : Nat} {c : ConfigImage} (hdram : 512 * Config.mib ≤ dram) (h : stepsLeft c ≤ n) :
    dramNeed (budgetFit dram n c) ≤ dram := by
  induction n generalizing c with
  | zero =>
    rw [budgetFit]
    exact (dramNeed_of_stepsLeft_zero (Nat.le_zero.mp h)).trans hdram
  | succ n ih =>
    by_cases hfit : dramNeed c ≤ dram
    · rwa [budgetFit_of_fits hfit]
    · rw [budgetFit_of_tooLarge hfit]
      exact ih (by rw [stepsLeft_budgetStep]; omega)

/-- What every lowering step keeps, the budget keeps. -/
theorem budgetFit_preserves {p : ConfigImage → Prop} (hp : ∀ c, p c → p (budgetStep c)) (dram n : Nat) {c : ConfigImage}
    (h : p c) : p (budgetFit dram n c) := by
  induction n generalizing c with
  | zero => exact h
  | succ n ih =>
    by_cases hfit : dramNeed c ≤ dram
    · rwa [budgetFit_of_fits hfit]
    · rw [budgetFit_of_tooLarge hfit]
      exact ih (hp c h)

theorem budget_pools (straps : Straps) {c : ConfigImage} (h : PoolsInRange c) : PoolsInRange (budget straps c) :=
  budgetFit_preserves (p := PoolsInRange) (fun _ => budgetStep_pools) _ _ h

theorem budget_defaultsFlag (straps : Straps) (c : ConfigImage) : (budget straps c).defaultsFlag = c.defaultsFlag :=
  budgetFit_preserves (p := fun d => d.defaultsFlag = c.defaultsFlag) (fun d h => (budgetStep_defaultsFlag d).trans h) _ _ rfl

theorem budget_fits (straps : Straps) {c : ConfigImage} (h : PoolsInRange c) :
    dramNeed (budget straps c) ≤ (if straps.dramGiB then 1024 else 512) * 1048576 := by
  unfold budget
  cases straps.dramGiB
  · exact budgetFit_fits (by decide) h.stepsLeft_le
  · exact budgetFit_fits (by decide) h.stepsLeft_le

/-! ## The statements -/

/-- Settles O5: by what every other command keeps. -/
theorem configurationIsKept : Obligations.ConfigurationIsKept := by
  intro c s u hc h
  have hkeeps := exec_keeps hc h
  exact ⟨hkeeps.image, hkeeps.straps⟩

/-- Settles O11: field by field. -/
theorem configurationFieldsAreInRange : Obligations.ConfigurationFieldsAreInRange := by
  intro b
  obtain ⟨hmac, hgroup⟩ := configFields_mac b
  obtain ⟨hip, hones⟩ := configFields_ip b
  obtain ⟨hport, hportMax⟩ := configFields_port b
  have hpools := configFields_pools b
  have hclamp {lo hi n : Nat} (h : lo ≤ hi) := clampNat_mem h n
  exact ⟨hmac, hgroup, hip, hones, configFields_broadcast b, hport, hportMax,
    hpools.staging_ge, hpools.staging_le, hpools.cache_ge, hpools.cache_le,
    hpools.index_ge, hpools.index_le, Nat.mul_mod_left .., hpools.object_ge, hpools.object_le, Nat.mul_mod_left ..,
    (hclamp (by decide)).1, (hclamp (by decide)).2, configFields_deepIdleMin b, powerOfTwo_mem _,
    (hclamp (by decide)).1, (hclamp (by decide)).2, (hclamp (by decide)).2, (hclamp (by decide)).1, (hclamp (by decide)).2,
    (hclamp (by decide)).1, (hclamp (by decide)).2, (hclamp (by decide)).1, (hclamp (by decide)).2,
    (hclamp (by decide)).2, (hclamp (by decide)).1, (hclamp (by decide)).2⟩

/-- Settles O12: an image in the ranges of R195 has fewer steps left than the budget may make. -/
theorem theBudgetAlwaysEndsWithAFit : Obligations.TheBudgetAlwaysEndsWithAFit := by
  intro straps answer
  have hpools := budget_pools straps (configOf_pools answer)
  exact ⟨budget_fits straps (configOf_pools answer), hpools.index_ge, hpools.object_ge, hpools.staging_ge, hpools.cache_ge,
    budget_defaultsFlag straps _⟩

/-- Settles O3: the tick on an empty queue; else what no command touches. -/
theorem queueAndClockOnlyGoForward : Obligations.QueueAndClockOnlyGoForward :=
  ⟨fun _ => step_of_nil, fun _ _ _ => exec_sameQueueAndClock⟩

/-- Settles O1: by the queue's front. -/
theorem stepRunsTheFrontCommand : Obligations.StepRunsTheFrontCommand := fun _ _ _ => step_of_cons rfl

/-- Settles O2: every command is an event, and an event answers. -/
theorem everyCommandAnswers : Obligations.EveryCommandAnswers := by
  refine ⟨exec_answers, fun s => ?_⟩
  cases hp : s.pending with
  | nil => exact ⟨_, step_of_nil hp⟩
  | cons c q =>
    rw [step_of_cons hp]
    exact exec_answers c _

end Sys2Proof.Machine
end
